-- ==== Sys2Proof/Word.lean ====
section
/-! DEFINITION. The word types of the register map and of memory. -/

namespace Sys2Proof

/-- A register word (R311: every register is 32 bits wide). -/
abbrev Word := BitVec 32

/-- One byte of a memory. -/
abbrev Byte := BitVec 8

/-- A word written as a number, taken modulo 2^32. -/
abbrev Word.ofNat (n : Nat) : Word := BitVec.ofNat 32 n

end Sys2Proof
end

