-- ==== Sys2Proof/Syntax.lean ====
section
/-! DEFINITION. The steps of the part: one constructor of `Instr` per row of spec/opcode_table.json,
with the row's operands. A command carries its packet (R287): the header and the parameter words
after it, and, where the row can take data from host memory (SRC 1), the words the device reads there.
A happening carries what the world outside the block supplies at that moment (a pin level, a measured
value, a received frame). -/

namespace Sys2Proof

/-- A host link that accesses registers (R313). -/
inductive Master where
  | pcie | spi
  deriving DecidableEq, Repr

/-- A packet header less its opcode (R287): the ring it was read from, TAG, FLAGS and LEN. -/
structure Hdr where
  ring  : Nat
  tag   : Nat
  flags : Nat
  len   : Nat
  deriving DecidableEq, Repr

/-- What resets the PCIe endpoint (R385). -/
inductive PcieResetKind where
  | flr | hotReset | linkDown | perst
  deriving DecidableEq, Repr

/-- What wakes the device from SLEEP (R375). -/
inductive WakeSource where
  | rstN | rtcAlarm | comparator (k : Nat)
  deriving DecidableEq, Repr

/-- The things whose frame enters an output chain: a defined group, or a unit or lane cluster that
belongs to no group (R16, R56). -/
inductive FrameOf where
  | group (n : Nat)
  | unit (u : Nat)
  | lanes (c : Nat)
  deriving DecidableEq, Repr

/-- What one FSP's training found (Table 12-5, Table 12-7): the least eye width in ps, whether every word of step 7
decoded, and whether the two fallbacks verify. `rank`, `ch` and `bit` are the worst bit's, `step` is the step (1 to 6)
that gave its eye. -/
structure TrainOutcome where
  eye        : Nat
  verify     : Bool
  prevOk     : Bool
  stepDownOk : Bool
  rank : Nat
  ch   : Nat
  bit  : Nat
  step : Nat
  deriving DecidableEq, Repr

/-- What a start-up finds in the world outside the NVM's bytes (Table 17-3, Table 17-5): whether the boot
ROM reads the two image slots as they stand, the crystal, the four die links,
the two trainings, whether the NVM can be read, the level of SAFE_N, the VIO supplies, and the
start-up's measured duration in 0.1 ms. -/
structure BootEnv where
  readA     : Bool
  readB     : Bool
  crystalOk : Bool
  nvmOk     : Bool
  linkOk    : List Bool
  train0    : TrainOutcome
  train1    : TrainOutcome
  vioOk     : List Bool
  duration  : Nat
  deriving DecidableEq, Repr

/-- What CAL_RUN finds of the standards (R333 steps 5 and 6): CALREF in µV, the resistance in µΩ, and
their deviations in 0.01 ppm of reading. -/
structure Standards where
  calrefUv : Nat
  resUohm  : Nat
  refDev   : Int
  resDev   : Int
  deriving DecidableEq, Repr

/-- Quality figures of one measured slot (Table 15-11), and its new correction record (Table 02-2). -/
structure SlotResult where
  slot     : Nat
  record   : List Word
  trim     : Nat
  residual : Int
  gainMove : Int
  offsMove : Int
  noise    : Nat
  inlMax   : Nat
  deriving DecidableEq, Repr

/-- What the calibration path delivers for one unit (R338): the measured slots, the per-unit items,
the reason code and slot of a check of Table 15-4 that the path itself found failed (TRIM_RAIL, a tap below 0,
TEMP_CHANGE, COMPLIANCE, and NOISE where no table gives the figure; 0: none), and the
drift of the standard. `eyes`, `taps` and `timings` are a lane cluster's eight eye widths, taps and timing residuals; a
unit of another kind has one residual. -/
structure UnitResult where
  slots  : List SlotResult
  tap    : Nat
  timings : List Int
  xdelay : Nat
  eyes   : List Nat
  taps   : List Nat
  reason : Nat
  rslot  : Nat
  drift  : Int
  deriving DecidableEq, Repr

/-- One f_M cycle at the tracking converter of a P unit (R59, R65): the voltages of EXP and EXN to AGND in µV, and
the fundamental that the tracker holds in that cycle: `a` and `b` in µV, `theta` in 2^-32 turn, `fc` in mHz. -/
structure ExcSample where
  vp    : Int
  vn    : Int
  a     : Int
  b     : Int
  theta : Nat
  fc    : Nat
  deriving DecidableEq, Repr

/-- One excitation measurement window (R67): the converter's samples of the last 1 ms, or of the last carrier period
while the tracker is locked, oldest first, one each f_M cycle; and the residual quadrature measured in that period, in
0.01 ppm. -/
structure ExcWindow where
  samples : List ExcSample
  quad    : Int
  deriving DecidableEq, Repr

/-- What the carrier tracker finds (R66): the phase prediction errors of its last carrier periods in µrad, the latest
first, the frequency measured in 0.1 Hz and the carrier's peak in µV. -/
structure TrkReport where
  errs : List Nat
  freq : Nat
  peak : Nat
  deriving DecidableEq, Repr

/-- A report of the carrier tracker of P unit `u`. -/
structure UnitTrk where
  u : Nat
  r : TrkReport
  deriving DecidableEq, Repr

/-- The onset of a condition of P or D unit `u` that outlasts this instant or does not (R54). -/
structure Onset where
  u     : Nat
  lasts : Bool
  deriving DecidableEq, Repr

/-- Supply `rail` below its threshold, for `lasts` ns (R367). -/
structure Dip where
  rail  : Nat
  lasts : Nat
  deriving DecidableEq, Repr

/-- A level of an input pad and on how many consecutive samples it has now been read (R175). -/
structure PadEdge where
  level   : Bool
  samples : Nat
  deriving DecidableEq, Repr

/-- What comparator `k` senses in mV, the latest sample first. -/
structure CmpSamples where
  k  : Nat
  mv : List Int
  deriving DecidableEq, Repr

/-- Sequencer `n` plays segment `seg` from the loop cache (R113). -/
structure CachedSeg where
  n   : Nat
  seg : Nat
  deriving DecidableEq, Repr

/-- What a loop finds while it acquires: the largest phase error in ps of the cycles that must be inside the window
(R243). -/
structure LockReport where
  loop  : Nat
  worst : Nat
  deriving DecidableEq, Repr

/-- A loop that may lose lock: whether its tuning word has reached the end of its range (R243). -/
structure LossReport where
  loop : Nat
  rail : Bool
  deriving DecidableEq, Repr

/-- The temperatures delivered at one SYSTIME multiple of 10 ms (R42, R364, R367): the cluster
sensors in 1/128 °C (PC0–PC11, DC0–DC3, AC0–AC7; none: no valid value) and the hottest sensor of
ADIE0, ADIE1 and the CDIE in °C. -/
structure Temps where
  clusters : List (Option Int)
  adie0 : Int
  adie1 : Int
  cdie  : Int
  deriving DecidableEq, Repr

/-- An uncorrectable DRAM error as the controller meets it (R271, Table 12-12): requester, command,
signature mismatch, protected block, failing words, the first failing word and its syndrome, and the
segment being accessed. -/
structure UncorrectableError where
  req   : Nat
  sub   : Nat
  cmd   : Nat
  sig   : Bool
  block : Nat
  words : Nat
  word  : Nat
  synd  : Nat
  seg   : Option Nat
  deriving DecidableEq, Repr

/-- An activation of a row of a bank (R266), with the requester it came from. -/
structure Activation where
  row : Nat
  req : Nat
  sub : Nat
  deriving DecidableEq, Repr

/-- The activations of a bank since its last RFM row before the one that the row names, and the limit of MR27 (R267,
R268). -/
structure RowWindow where
  before : List Activation
  limit  : Nat
  deriving DecidableEq, Repr

/-- Where a bit is found wrong: a protected 64-byte DRAM block; an SRAM block of 256 words of the loop cache or of a sine
table (Table 16-7), corrected there; or more than one bit of entry `k` of a sine bank of a die, which lies in SRAM block
`block`; or a word of the command window (R285), by its place in the 64 KiB, corrected there. -/
inductive EccPlace where
  | dram (block : Nat)
  | sram (block : Nat)
  | sineWord (die bank k block : Nat)
  | window (word : Nat)
  deriving DecidableEq, Repr

/-- A control-store scrub pass (R305): corrected words of either store, and an uncorrectable word's
block with whether the NOR gives that block as it holds it. -/
structure StoreScrub where
  ucs : Nat
  ncs : Nat
  ue  : Option (Nat × Bool)
  deriving DecidableEq, Repr

/-- What a step boundary meets: the header read at HEAD of the ring, and an uncorrectable control-store word met in the
step, by its block, with whether the NOR gives that block as it holds it (R293, R305). -/
structure StepView where
  header : Option Word := none
  bad    : Option (Nat × Bool) := none
  deriving DecidableEq, Repr

/-- An ABORT's parameter words, and the headers of the packets that it removes from a ring in host memory, in ring order. -/
structure AbortPacket where
  words   : List Word
  headers : List Word := []
  deriving DecidableEq, Repr

/-- The content of a GDAT frame (R232): sender, whether its CRC matched, the sender's presence flags,
reported delay, mode, a mode-change message, a SAFE announcement, and a mailbox message. COMMIT names the SYSTIME of the
epoch at whose GSYNC the change is committed (R355). -/
inductive ModeMsg where
  | none
  | prepare (target : Nat)
  | commit (target epoch : Nat)
  | ready
  | refused
  deriving DecidableEq, Repr

/-- One received GDAT frame (R232). `mail`: destination (0–15, or 16 for all) and four words.
`announce`: the master's announced SYSTIME, L_SYS and LMODE of the next epoch (R229). `measure`: the master's order that every
present node measure its delay, with APPLY (R230). -/
structure GdatFrame where
  node     : Nat
  master   : Bool
  crcOk    : Bool
  armed    : Bool
  span     : Bool
  gclkLost : Bool
  delay    : Nat
  mode     : Nat
  msg      : ModeMsg
  safe     : Bool
  announce : Option (Nat × Nat × Nat)
  mail     : Option (Nat × List Word)
  measure  : Option Bool
  deriving DecidableEq, Repr

/-- JTAG TAP instructions (R388). -/
inductive TapInstr where
  | bypass | samplePreload | extest | idcode | clamp | highz
  deriving DecidableEq, Repr

/-- Where a party of a mode change stands (R352, R354). -/
inductive Party where
  | cdie
  | unit (u : Nat)
  | lanes (c : Nat)
  | region (i : Nat)
  | node (n : Nat)
  deriving DecidableEq, Repr

/-- The steps of the EPK-4816, one constructor per row of spec/opcode_table.json. -/
inductive Instr where
  -- commands (Table 13-2)
  | nop (h : Hdr) (p : List Word)
  | identify (h : Hdr) (p : List Word)
  | getStatus (h : Hdr) (p : List Word)
  | modeSet (h : Hdr) (p : List Word)
  | modeQuery (h : Hdr) (p : List Word)
  | segCreate (h : Hdr) (p : List Word)
  | segFree (h : Hdr) (p : List Word)
  | segSeal (h : Hdr) (p : List Word)
  | segOpen (h : Hdr) (p : List Word)
  | streamRingCreate (h : Hdr) (p : List Word) (d : List Word)
  | liftSubmit (h : Hdr) (p : List Word)
  | segCompact (h : Hdr) (p : List Word)
  | groupDefine (h : Hdr) (p : List Word)
  | stepsWrite (h : Hdr) (p : List Word) (d : List Word)
  | seqArm (h : Hdr) (p : List Word)
  | seqStart (h : Hdr) (p : List Word)
  | seqStop (h : Hdr) (p : List Word)
  | seqJump (h : Hdr) (p : List Word)
  | unitConfig (h : Hdr) (p : List Word)
  | unitRange (h : Hdr) (p : List Word)
  | unitEnable (h : Hdr) (p : List Word)
  | unitDisable (h : Hdr) (p : List Word)
  | tableLoad (h : Hdr) (p : List Word) (d : List Word)
  | tableSwap (h : Hdr) (p : List Word)
  | acqConfig (h : Hdr) (p : List Word)
  | trackLoad (h : Hdr) (p : List Word) (d : List Word)
  | acqArm (h : Hdr) (p : List Word)
  | acqAbort (h : Hdr) (p : List Word)
  | acqReadout (h : Hdr) (p : List Word)
  | calRun (h : Hdr) (p : List Word) (st : Standards)
  | calCommit (h : Hdr) (p : List Word)
  | calDiscard (h : Hdr) (p : List Word)
  | nvmRead (h : Hdr) (p : List Word)
  | nvmWrite (h : Hdr) (p : List Word) (d : List Word) (otherRead : Bool)
  | auditRead (h : Hdr) (p : List Word)
  | dramTrain (h : Hdr) (p : List Word) (fsp0 fsp1 : TrainOutcome)
  | dramFreq (h : Hdr) (p : List Word)
  | dramResume (h : Hdr) (p : List Word) (badWords : List Nat) (sigBad : Bool)
  | pllConfig (h : Hdr) (p : List Word)
  | pllRelock (h : Hdr) (p : List Word)
  | gydenConfig (h : Hdr) (p : List Word)
  | gydenMeasure (h : Hdr) (p : List Word)
  | pacReserve (h : Hdr) (p : List Word)
  | pacRelease (h : Hdr) (p : List Word)
  | microcodeReload (h : Hdr) (p : List Word) (rd backRd : Bool)
  | abort (h : Hdr) (p : AbortPacket)
  | safeAll (h : Hdr) (p : List Word)
  | resumeFromSafe (h : Hdr) (p : List Word)
  -- the command path
  | ringError (ring : Nat) (hdr : Option Word)
  | stepWdog (ring : Nat)
  | journalReplay (ring : Nat)
  | bgMinExpiry
  | irqCoalesceExpiry
  | cstoreScrub (r : StoreScrub)
  | sqTailWrite (m : Master) (ring : Nat) (v : Word)
  | sqCfgWrite (m : Master) (ring : Nat) (v : Word)
  | cqCfgWrite (m : Master) (v : Word)
  | cqHeadWrite (m : Master) (v : Word)
  -- register accesses with a behaviour of their own
  | key (m : Master) (v : Word)
  | update (m : Master) (v : Word)
  | indAddrWrite (m : Master) (v : Word)
  | indDataRead (m : Master)
  | indDataWrite (m : Master) (v : Word)
  | indPrefetchDone (m : Master)
  | latchingLowRead (m : Master) (addr : Nat)
  | winDataAccess (m : Master) (wr : Option Word)
  | descSelWrite (m : Master) (v : Word)
  | pteSelWrite (m : Master) (v : Word)
  | rtSelWrite (m : Master) (v : Word)
  | rtGo (m : Master)
  | rtClr (m : Master)
  | swev (m : Master) (v : Word)
  | force (m : Master) (t : Nat)
  | tmrInjGo (m : Master) (v : Word)
  | patrolTestGo (m : Master) (v : Word)
  | rtcSet (m : Master) (v : Word)
  | rtcLoad
  | wdogKick (m : Master) (v : Word)
  | gdatSend (m : Master) (v : Word)
  | upRptrWrite (m : Master) (t : Nat) (v : Word)
  | pkgCapWrite (m : Master) (v : Word)
  | registerWrite (m : Master) (addr : Nat) (v : Word) (be : Nat)
  | writeReachesAdie (rgn : Nat)
  | spiStatus
  -- links, resets, supplies and pins
  | pcieReset (k : PcieResetKind)
  | supplyValid (b : BootEnv)
  | rstNAssert
  | rstNRelease (b : BootEnv)
  | supplyDip (rail : Nat)
  | supplyBelowThreshold (d : Dip)
  | vaonLoss
  | safeNAssert
  | safeNRelease
  | safeAnnouncement (node : Nat)
  | vioLow (c : Nat)
  | vioRecover (c : Nat)
  | laneInputEdge (j : Nat) (e : PadEdge)
  | evinEdge (k : Nat) (e : PadEdge)
  | laneContentionCheck (c : Nat) (pads : Byte)
  | comparatorAlarm (m : CmpSamples)
  | comparatorClear (m : CmpSamples)
  | rtcAlarm
  | watchdogExpiry
  | wake (src : WakeSource) (b : BootEnv)
  | sleepPowerDown
  -- units
  | tempSample (t : Temps)
  | tempStale (cluster : Nat)
  | senseCheck (u : Nat) (isOpen : Bool)
  | complianceOnset (o : Onset)
  | openLoad (u : Nat)
  | modOvl (o : Onset)
  | excWindowEnd (u : Nat) (w : ExcWindow)
  | trkLock (r : UnitTrk)
  | trkLockLoss (r : UnitTrk)
  | framePlayback (f : FrameOf)
  | rangeSwitch (u : Nat)
  | swFail (u : Nat)
  -- sequencers
  | ringRead (n : Nat)
  | jumpDecision (n : Nat)
  | passEnd (n : Nat)
  | underrunHoldCheck (n : Nat)
  | granuleJump (n : Nat)
  | gateRelease (n : Nat)
  | frame0 (n : Nat)
  | stopTakesEffect (n : Nat)
  | carveApply (n : Nat)
  | admissionRelease (n : Nat)
  -- segment memory
  | liftDescriptor (ch : Nat) (desc : List Word) (data : List Word)
  | liftDescriptorEnd (ch : Nat)
  | liftWaitRelease (ch : Nat)
  | pageMove
  | retireDeferred
  | loopCacheUe (r : CachedSeg)
  -- DRAM
  | eccCorrection (place : EccPlace)
  | dramFreeze (e : UncorrectableError)
  | freezeBuffersEmpty (g : Nat)
  | blackoutUnderrun (n : Nat)
  | refresh (die : Nat) (bank : Nat) (inBurst : Bool)
  | rfm (die bank row req sub : Nat) (w : RowWindow)
  | rhWindowReset
  | scrubRead
  | driftTrack (die : Nat) (count : Nat) (drift : Int)
  | mr4Read (codes : List Nat) (hot : Bool)
  -- acquisition
  | acqSample (u : Nat) (x : Int) (cmon : Int)
  | trackTick (t : Nat)
  | uploadBlock (t : Nat)
  -- events and the Gyden bus
  | eventFire (src hop : Nat)
  | eventDelivery
  | tmrFire (n : Nat)
  | evoutPulseEnd (n : Nat)
  | gevSlotSend (k : Nat)
  | gevReceive (k : Nat)
  | gevApply (k : Nat)
  | epoch (syncErr : Int)
  | gdatFrameReceive (f : GdatFrame)
  | gdatFrameSend
  | nodeLost (n : Nat)
  | gclkLost
  -- clocks
  | refLost (offTolerance : Bool)
  | phaseJump
  | refReturn
  | offsetMeasured (deltaPs : Int)
  | steerDone
  | systimeStep
  | lockDeclared (r : LockReport)
  | lossOfLock (r : LossReport)
  | xtalFail
  -- die links
  | linkFrame (rgn : Nat) (retransmitted : Bool)
  | linkGapEnd (rgn : Nat)
  | linkLost (rgn : Nat)
  -- modes, admission, PATROL, upkeep
  | modeCommit
  | modeDeadline
  | modeApply (p : Party)
  | pacTimeout
  | patrolWindowClose (c obj : Nat)
  | tmrScrubPass
  | nvmDpdEntry
  | stepBoundary (ring : Nat) (peek : StepView)
  | nvmOperationEnd (ok : Bool)
  | calUnitFinished (unit : Nat) (r : UnitResult)
  | pcieLinkUp
  | vaonApply
  | x32Stop
  | tapInstruction (t : TapInstr)
  | highWordRead (m : Master) (addr : Nat)
  | reservedRead (m : Master) (addr : Nat)
  deriving DecidableEq, Repr

end Sys2Proof
end

