-- ==== Sys2Proof/Decode.lean ====
section
/-! DEFINITION. The command that a word spells. The part takes commands and happenings, no instruction words, and the
table gives none of its rows bits: no word spells one. -/

namespace Sys2Proof

/-- The command of the `nbits`-bit word `w`, by the bits of the table: none, since no row has any. -/
def decodeTableWord (nbits w : Nat) : Option Instr :=
  match nbits, w with
  | _, _ => none

end Sys2Proof
end

