-- ==== Sys2Proof/Config.lean ====
section
/-! DEFINITION. What one manufactured part fixes, and the free values: constants without a body, so that
no proof can depend on what they are (log entries 3 and 5). -/

namespace Sys2Proof

/-- The unique serial of the part (Table 14-5, HW). -/
opaque Config.serial : BitVec 64

/-- Word `i` of the fused key hash (R306, Table 14-8, HW). -/
opaque Config.keyHash : Nat → Word

/-- The bits of the factory noise seed of P or D unit `u` (R156), which the maker does not publish. -/
opaque Config.noiseSeed : Nat → BitVec 64

/-- A value the spec leaves open where it says that some value results: one for each number of the
counter `free` of the state. -/
opaque Config.freeValue : Nat → BitVec 64

end Sys2Proof
end

