-- ==== Sys2Proof/Machine/Bits.lean ====
section
/-! DEFINITION. Bit fields, two's complement, saturation, rounding and the CRC-32 of the records, and the
sparse tables that hold the machine's memories and its numbered objects. -/

namespace Sys2Proof.Machine

/-! ## Bit fields -/

/-- Bits `hi` to `lo` of a number. -/
def natBits (n hi lo : Nat) : Nat := (n >>> lo) % 2 ^ (hi + 1 - lo)

/-- Bits `hi` to `lo` of a word, as a number. -/
def bits (w : Word) (hi lo : Nat) : Nat := natBits w.toNat hi lo

/-- Bit `i` of a word. -/
def bit (w : Word) (i : Nat) : Bool := w.toNat.testBit i

/-- The mask of bits `hi` to `lo`. -/
def maskOf (hi lo : Nat) : Nat := (2 ^ (hi + 1 - lo) - 1) <<< lo

/-- `w` with bits `hi` to `lo` replaced by the low bits of `v`. -/
def setBits (w : Word) (hi lo v : Nat) : Word :=
  let m := maskOf hi lo
  Word.ofNat (w.toNat - (w.toNat &&& m) + ((v <<< lo) &&& m))

/-- `old` with the bits of `mask` taken from `new`. -/
def mergeMask (old new mask : Nat) : Nat := old - (old &&& mask) + (new &&& mask)

/-- A Bool as a bit. -/
def b2n (b : Bool) : Nat := if b then 1 else 0

/-- The two's-complement value of the low `n` bits of `v`. -/
def signed (n v : Nat) : Int :=
  let r := v % 2 ^ n
  if r < 2 ^ (n - 1) then (r : Int) else (r : Int) - (2 ^ n : Nat)

/-- The low `n` bits of a two's-complement number. -/
def unsigned (n : Nat) (i : Int) : Nat := (i % ((2 ^ n : Nat) : Int)).toNat

/-- `i` limited to `lo` … `hi`. -/
def clampI (lo hi i : Int) : Int := if i < lo then lo else if hi < i then hi else i

/-- A signed number saturated to `n` bits. -/
def satS (n : Nat) (i : Int) : Int :=
  clampI (-((2 ^ (n - 1) : Nat) : Int)) (((2 ^ (n - 1) : Nat) : Int) - 1) i

/-- A count saturated to `n` bits. -/
def satU (n v : Nat) : Nat := min v (2 ^ n - 1)

/-- `a / b` rounded to nearest, ties away from zero (`b` positive). -/
def divRound (a b : Int) : Int :=
  if b ≤ 0 then 0
  else if 0 ≤ a then (2 * a + b) / (2 * b) else -((2 * (-a) + b) / (2 * b))

/-- `a / b` rounded to nearest, ties to even (`b` positive). -/
def divEven (a b : Int) : Int :=
  if b ≤ 0 then 0
  else
    let q := a / b
    let r := 2 * (a % b)
    if r < b then q else if b < r then q + 1 else if q % 2 = 0 then q else q + 1

/-- The smallest multiple of `t` at or after `x` (`t` positive). -/
def ceilTo (x t : Nat) : Nat := if t = 0 then x else ((x + t - 1) / t) * t

/-- The largest multiple of `t` at or before `x` (`t` positive). -/
def floorTo (x t : Nat) : Nat := if t = 0 then x else (x / t) * t

/-! ## Bytes and checks -/

/-- The four bytes of a word, least significant first. -/
def wordBytes (w : Word) : List Byte :=
  [BitVec.ofNat 8 w.toNat, BitVec.ofNat 8 (w.toNat >>> 8), BitVec.ofNat 8 (w.toNat >>> 16),
   BitVec.ofNat 8 (w.toNat >>> 24)]

/-- A word from bytes, least significant first. -/
def bytesNat : List Byte → Nat
  | [] => 0
  | b :: t => b.toNat + 256 * bytesNat t

/-- One bit step of CRC-32 (IEEE 802.3, reflected polynomial 0xEDB88320). -/
def crcBit (c : Nat) : Nat := if c % 2 = 1 then (c >>> 1) ^^^ 0xEDB88320 else c >>> 1

/-- One byte of CRC-32. -/
def crcByte (c : Nat) (b : Byte) : Nat :=
  crcBit (crcBit (crcBit (crcBit (crcBit (crcBit (crcBit (crcBit (c ^^^ b.toNat))))))))

/-- CRC-32 of a list of bytes, as records and images carry it. -/
def crc32 (l : List Byte) : Nat := (l.foldl crcByte 0xFFFFFFFF) ^^^ 0xFFFFFFFF

/-- Number of 1 bits among the low `n` bits. -/
def popCount (v : Nat) : Nat → Nat
  | 0 => 0
  | n + 1 => popCount v n + b2n (v.testBit n)

/-- The indices below `n` whose bit is set in `v`, ascending. -/
def bitList (v n : Nat) : List Nat := (List.range n).filter (fun i => v.testBit i)

/-- `l` with `x` in place of its element `i`. -/
def listSet {α : Type} (l : List α) (i : Nat) (x : α) : List α := l.set i x

/-- The greatest integer whose square does not exceed `n`, by at most `fuel` bit trials from above. -/
def sqrtAux (n : Nat) : Nat → Nat → Nat
  | 0, r => r
  | k + 1, r => let t := r + 2 ^ k; sqrtAux n k (if t * t ≤ n then t else r)

/-- Integer square root of numbers below 2^128. -/
def natSqrt (n : Nat) : Nat := sqrtAux n 64 0

/-! ## Sparse tables

A memory or a set of numbered objects is a list of (key, value) pairs in one canonical form: keys strictly
rising, and no entry equal to what an unlisted key reads as. -/

/-- What key `k` holds: its entry, or else `d k`. -/
def Tbl.get {α : Type} (d : Nat → α) : List (Nat × α) → Nat → α
  | [], k => d k
  | (a, b) :: t, k => if a = k then b else Tbl.get d t k

/-- The entries but those of key `k`. -/
def Tbl.erase {α : Type} (k : Nat) : List (Nat × α) → List (Nat × α)
  | [] => []
  | (a, b) :: t => if a = k then Tbl.erase k t else (a, b) :: Tbl.erase k t

/-- The entry inserted before the first greater key. -/
def Tbl.insert {α : Type} (k : Nat) (v : α) : List (Nat × α) → List (Nat × α)
  | [] => [(k, v)]
  | (a, b) :: t => if k < a then (k, v) :: (a, b) :: t else (a, b) :: Tbl.insert k v t

/-- The table with `v` at key `k`; writing what an unlisted key reads as removes the entry. -/
def Tbl.set {α : Type} [DecidableEq α] (d : Nat → α) (m : List (Nat × α)) (k : Nat) (v : α) :
    List (Nat × α) :=
  if v = d k then Tbl.erase k m else Tbl.insert k v (Tbl.erase k m)

/-- The keys rise strictly. -/
def Tbl.rising {α : Type} : List (Nat × α) → Bool
  | [] => true
  | [_] => true
  | (a, _) :: (b, y) :: t => decide (a < b) && Tbl.rising ((b, y) :: t)

/-- Canonical form: keys strictly rising and no entry equal to its default. -/
def Tbl.wf {α : Type} [DecidableEq α] (d : Nat → α) (m : List (Nat × α)) : Bool :=
  Tbl.rising m && m.all (fun p => decide (p.2 ≠ d p.1))

/-- A requester of Table 12-3: REQ, and the SUB it may have. The walks of REQ 10 are those in class NRT: playback's are
REQ 1. -/
def requesterOk (req sub : Nat) : Bool :=
  if req ≤ 2 || req = 12 then decide (sub < 16)
  else if req = 3 || req = 4 || req = 9 then decide (sub < 4)
  else if req = 5 then decide (sub < 8)
  else if req = 6 then decide (sub < 2)
  else if req = 10 then sub == 5 || sub == 6 || sub == 7
  else decide (req < 12) && sub == 0

end Sys2Proof.Machine
end

