-- ==== Sys2Proof/Machine/RegMap.lean ====
section
/-! DEFINITION. The register map: every register of the blocks of Table 14-3 and of the records on the
analogue dies (R75, R94, R164), with the bits of each field kind of R4 and the reset value of the spec's
field tables. A field whose reset the tables give as HW or NVM stands here as 0: the hardware, or the
start-up that reads the NVM (R391), sets it (log entry 4). -/

namespace Sys2Proof.Machine

/-- One register: its offset in its block; the bits software writes (RW, RWB, RWK, RWT); the W1C bits;
the buffered bits (RWB, R322); the keyed bits (RWK, R317); the triplicated bits (RWT, R319); its reset. -/
structure RegDef where
  off : Nat
  rw  : Nat
  w1c : Nat
  buf : Nat
  key : Nat
  tmr : Nat
  rst : Nat
  deriving DecidableEq, Repr

/-- A field: the byte address (or the offset in its block) of its register, and its bits `hi` to `lo`. -/
structure Fld where
  adr : Nat
  hi  : Nat
  lo  : Nat
  deriving DecidableEq, Repr

/-- The same field of a register `k` bytes further on: another instance of the block or array. -/
def Fld.at (f : Fld) (k : Nat) : Fld := { f with adr := f.adr + k }

/-- GLOBAL: the registers of R328, part 0. -/
def regsGlobal0 : List RegDef := [
  ⟨0, 0, 0, 0, 0, 0, 0x14816⟩,  -- ID
  ⟨0x4, 0, 0, 0, 0, 0, 0xb0⟩,  -- STEPPING
  ⟨0x8, 0, 0, 0, 0, 0, 0⟩,  -- SERIAL_LO
  ⟨0xc, 0, 0, 0, 0, 0, 0⟩,  -- SERIAL_HI
  ⟨0x10, 0, 0, 0, 0, 0, 0⟩,  -- CTRL
  ⟨0x14, 0, 0x7f, 0, 0, 0, 0⟩,  -- STATUS
  ⟨0x18, 0, 0, 0, 0, 0, 0⟩,  -- RESET_CAUSE
  ⟨0x1c, 0, 0, 0, 0, 0, 0⟩,  -- PINS
  ⟨0x20, 0, 0, 0, 0, 0, 0⟩,  -- MODE
  ⟨0x24, 0xffffffff, 0, 0, 0, 0, 0⟩,  -- MODE_SKEW
  ⟨0x28, 0xffffffff, 0, 0, 0, 0, 0⟩,  -- KEY
  ⟨0x2c, 0, 0, 0, 0, 0, 0⟩,  -- KEYSTAT
  ⟨0x30, 0, 0, 0, 0, 0, 0⟩,  -- KEYFAIL
  ⟨0x34, 0, 0, 0, 0, 0, 0⟩,  -- LOCKED_WR
  ⟨0x38, 0xffff, 0, 0, 0, 0, 0⟩,  -- UPDATE
  ⟨0x3c, 0, 0, 0, 0, 0, 0⟩,  -- UG_PEND
  ⟨0x40, 0, 0, 0, 0, 0, 0⟩,  -- UG_LAST
  ⟨0x44, 0, 0, 0, 0, 0, 0⟩,  -- SHADOW_STAT
  ⟨0x48, 0xffffffff, 0, 0, 0, 0, 0⟩,  -- IND_ADDR
  ⟨0x4c, 0xffffffff, 0, 0, 0, 0, 0⟩,  -- IND_DATA
  ⟨0x50, 0, 0x2, 0, 0, 0, 0⟩,  -- IND_STAT
  ⟨0x54, 0xffffffff, 0, 0, 0, 0, 0⟩,  -- IND_ADDR_S
  ⟨0x58, 0xffffffff, 0, 0, 0, 0, 0⟩,  -- IND_DATA_S
  ⟨0x5c, 0, 0x2, 0, 0, 0, 0⟩  -- IND_STAT_S
  ]

/-- GLOBAL: the registers of R328, part 1. -/
def regsGlobal1 : List RegDef := [
  ⟨0x60, 0x1, 0, 0, 0x1, 0x1, 0x1⟩,  -- TMR_SCRUB
  ⟨0x64, 0, 0, 0, 0, 0, 0⟩,  -- TMR_CORR
  ⟨0x68, 0, 0, 0, 0, 0, 0⟩,  -- TMR_LAST
  ⟨0x6c, 0x1ffff, 0, 0, 0, 0, 0⟩,  -- TMR_SEL
  ⟨0x70, 0, 0, 0, 0, 0, 0⟩,  -- TMR_COPY0
  ⟨0x74, 0, 0, 0, 0, 0, 0⟩,  -- TMR_COPY1
  ⟨0x78, 0, 0, 0, 0, 0, 0⟩,  -- TMR_COPY2
  ⟨0x7c, 0x1f31, 0, 0, 0x1f31, 0, 0⟩,  -- TMR_INJ
  ⟨0x80, 0, 0, 0, 0, 0, 0⟩,  -- RSVD_LAST
  ⟨0x84, 0, 0, 0, 0, 0, 0⟩,  -- ACC_PCIE
  ⟨0x88, 0, 0, 0, 0, 0, 0⟩,  -- ACC_SPI
  ⟨0x8c, 0, 0, 0, 0, 0, 0⟩,  -- UG_MERGED
  ⟨0x90, 0xffffffff, 0, 0, 0, 0, 0⟩,  -- SCRATCH0
  ⟨0x94, 0xffffffff, 0, 0, 0, 0, 0⟩,  -- SCRATCH1
  ⟨0x98, 0xffffffff, 0, 0, 0, 0, 0⟩,  -- SCRATCH2
  ⟨0x9c, 0xffffffff, 0, 0, 0, 0, 0⟩,  -- SCRATCH3
  ⟨0xa0, 0, 0, 0, 0, 0, 0⟩,  -- KEYHASH0
  ⟨0xa4, 0, 0, 0, 0, 0, 0⟩,  -- KEYHASH1
  ⟨0xa8, 0, 0, 0, 0, 0, 0⟩,  -- KEYHASH2
  ⟨0xac, 0, 0, 0, 0, 0, 0⟩,  -- KEYHASH3
  ⟨0xb0, 0, 0, 0, 0, 0, 0⟩,  -- KEYHASH4
  ⟨0xb4, 0, 0, 0, 0, 0, 0⟩,  -- KEYHASH5
  ⟨0xb8, 0, 0, 0, 0, 0, 0⟩,  -- KEYHASH6
  ⟨0xbc, 0, 0, 0, 0, 0, 0⟩  -- KEYHASH7
  ]

/-- GLOBAL: the registers of R328, part 2. -/
def regsGlobal2 : List RegDef := [
  ⟨0xc0, 0, 0, 0, 0, 0, 0⟩,  -- UG_COUNT0
  ⟨0xc4, 0, 0, 0, 0, 0, 0⟩,  -- UG_COUNT1
  ⟨0xc8, 0, 0, 0, 0, 0, 0⟩,  -- UG_COUNT2
  ⟨0xcc, 0, 0, 0, 0, 0, 0⟩,  -- UG_COUNT3
  ⟨0xd0, 0, 0, 0, 0, 0, 0⟩,  -- UG_COUNT4
  ⟨0xd4, 0, 0, 0, 0, 0, 0⟩,  -- UG_COUNT5
  ⟨0xd8, 0, 0, 0, 0, 0, 0⟩,  -- UG_COUNT6
  ⟨0xdc, 0, 0, 0, 0, 0, 0⟩,  -- UG_COUNT7
  ⟨0xe0, 0, 0, 0, 0, 0, 0⟩,  -- UG_COUNT8
  ⟨0xe4, 0, 0, 0, 0, 0, 0⟩,  -- UG_COUNT9
  ⟨0xe8, 0, 0, 0, 0, 0, 0⟩,  -- UG_COUNT10
  ⟨0xec, 0, 0, 0, 0, 0, 0⟩,  -- UG_COUNT11
  ⟨0xf0, 0, 0, 0, 0, 0, 0⟩,  -- UG_COUNT12
  ⟨0xf4, 0, 0, 0, 0, 0, 0⟩,  -- UG_COUNT13
  ⟨0xf8, 0, 0, 0, 0, 0, 0⟩,  -- UG_COUNT14
  ⟨0xfc, 0, 0, 0, 0, 0, 0⟩  -- UG_COUNT15
  ]

/-- GLOBAL: the registers of R328. -/
def regsGlobal : List RegDef := regsGlobal0 ++ regsGlobal1 ++ regsGlobal2

/-- HOSTCMD: the registers of R309, Table 13-7, part 0. -/
def regsHostcmd0 : List RegDef := [
  ⟨0, 0x1, 0, 0, 0, 0, 0⟩,  -- CTRL
  ⟨0x4, 0, 0x1ef, 0, 0, 0, 0⟩,  -- STATUS
  ⟨0x8, 0, 0, 0, 0, 0, 0⟩,  -- STATE
  ⟨0xc, 0xffff00ff, 0, 0, 0, 0, 0x3e80011⟩,  -- ARB
  ⟨0x10, 0xffff1f1f, 0, 0, 0, 0, 0x10100⟩,  -- IRQ_CFG
  ⟨0x14, 0, 0x3, 0, 0, 0, 0⟩,  -- IRQ_STAT
  ⟨0x18, 0, 0, 0, 0, 0, 0⟩,  -- CUR
  ⟨0x1c, 0, 0, 0, 0, 0, 0⟩,  -- CUR_STEPS
  ⟨0x40, 0xffffffff, 0, 0, 0, 0, 0⟩,  -- SQ0_BASE_LO
  ⟨0x44, 0xffffffff, 0, 0, 0, 0, 0⟩,  -- SQ0_BASE_HI
  ⟨0x48, 0x1f03, 0, 0, 0, 0, 0x600⟩,  -- SQ0_CFG
  ⟨0x4c, 0, 0, 0, 0, 0, 0⟩,  -- SQ0_HEAD
  ⟨0x50, 0xffff, 0, 0, 0, 0, 0⟩,  -- SQ0_TAIL
  ⟨0x60, 0xffffffff, 0, 0, 0, 0, 0⟩,  -- SQ1_BASE_LO
  ⟨0x64, 0xffffffff, 0, 0, 0, 0, 0⟩,  -- SQ1_BASE_HI
  ⟨0x68, 0x1f03, 0, 0, 0, 0, 0x600⟩,  -- SQ1_CFG
  ⟨0x6c, 0, 0, 0, 0, 0, 0⟩,  -- SQ1_HEAD
  ⟨0x70, 0xffff, 0, 0, 0, 0, 0⟩,  -- SQ1_TAIL
  ⟨0x80, 0xffffffff, 0, 0, 0, 0, 0⟩,  -- SQ2_BASE_LO
  ⟨0x84, 0xffffffff, 0, 0, 0, 0, 0⟩,  -- SQ2_BASE_HI
  ⟨0x88, 0x1f03, 0, 0, 0, 0, 0x600⟩,  -- SQ2_CFG
  ⟨0x8c, 0, 0, 0, 0, 0, 0⟩,  -- SQ2_HEAD
  ⟨0x90, 0xffff, 0, 0, 0, 0, 0⟩,  -- SQ2_TAIL
  ⟨0xa0, 0xffffffff, 0, 0, 0, 0, 0⟩  -- SQ3_BASE_LO
  ]

/-- HOSTCMD: the registers of R309, Table 13-7, part 1. -/
def regsHostcmd1 : List RegDef := [
  ⟨0xa4, 0xffffffff, 0, 0, 0, 0, 0⟩,  -- SQ3_BASE_HI
  ⟨0xa8, 0x1f03, 0, 0, 0, 0, 0x600⟩,  -- SQ3_CFG
  ⟨0xac, 0, 0, 0, 0, 0, 0⟩,  -- SQ3_HEAD
  ⟨0xb0, 0xffff, 0, 0, 0, 0, 0⟩,  -- SQ3_TAIL
  ⟨0xc0, 0xffffffff, 0, 0, 0, 0, 0⟩,  -- CQ_BASE_LO
  ⟨0xc4, 0xffffffff, 0, 0, 0, 0, 0⟩,  -- CQ_BASE_HI
  ⟨0xc8, 0x1f03, 0, 0, 0, 0, 0x400⟩,  -- CQ_CFG
  ⟨0xcc, 0xffff, 0, 0, 0, 0, 0⟩,  -- CQ_HEAD
  ⟨0xd0, 0, 0, 0, 0, 0, 0⟩,  -- CQ_TAIL
  ⟨0xe0, 0, 0, 0, 0, 0, 0⟩,  -- CMD_COUNT
  ⟨0xe4, 0, 0, 0, 0, 0, 0⟩,  -- ERR_COUNT
  ⟨0xe8, 0, 0, 0, 0, 0, 0⟩,  -- LAST_ERR
  ⟨0xec, 0, 0, 0, 0, 0, 0⟩,  -- PREEMPT
  ⟨0xf0, 0xffff, 0, 0, 0, 0, 0⟩,  -- STEP_MAX
  ⟨0xf4, 0, 0, 0, 0, 0, 0⟩,  -- UE_VER
  ⟨0xf8, 0, 0, 0, 0, 0, 0⟩,  -- UE_SLOT
  ⟨0xfc, 0, 0, 0, 0, 0, 0⟩,  -- UE_PC
  ⟨0x100, 0, 0, 0, 0, 0, 0⟩,  -- UCS_CE
  ⟨0x104, 0, 0, 0, 0, 0, 0⟩,  -- NCS_CE
  ⟨0x108, 0, 0, 0, 0, 0, 0⟩,  -- MS_SCRUB
  ⟨0x10c, 0, 0, 0, 0, 0, 0⟩,  -- JRNL
  ⟨0x110, 0, 0, 0, 0, 0, 0⟩,  -- ABORTS
  ⟨0x114, 0, 0, 0, 0, 0, 0⟩,  -- WDOG
  ⟨0x118, 0xffff, 0, 0, 0, 0, 0⟩  -- LAT_URG
  ]

/-- HOSTCMD: the registers of R309, Table 13-7. -/
def regsHostcmd : List RegDef := regsHostcmd0 ++ regsHostcmd1

/-- EVENT: the registers of Table 10-7, part 0. -/
def regsEvent0 : List RegDef := [
  ⟨0, 0x3, 0, 0, 0, 0, 0⟩,  -- CTRL
  ⟨0x4, 0, 0xf, 0, 0, 0, 0⟩,  -- STATUS
  ⟨0x8, 0, 0, 0, 0, 0, 0⟩,  -- LOOP
  ⟨0xc, 0xff, 0, 0, 0, 0, 0⟩,  -- SWEV
  ⟨0x10, 0xff, 0, 0, 0, 0, 0⟩,  -- RT_SEL
  ⟨0x14, 0xffffffff, 0, 0, 0, 0, 0⟩,  -- RT_SRC
  ⟨0x18, 0xfff, 0, 0, 0, 0, 0⟩,  -- RT_CFG
  ⟨0x1c, 0, 0, 0, 0, 0, 0⟩,  -- RT_COUNT
  ⟨0x20, 0, 0xffffffff, 0, 0, 0, 0⟩,  -- COINC0
  ⟨0x24, 0, 0xffffffff, 0, 0, 0, 0⟩,  -- COINC1
  ⟨0x28, 0, 0xffffffff, 0, 0, 0, 0⟩,  -- COINC2
  ⟨0x2c, 0, 0xffffffff, 0, 0, 0, 0⟩,  -- COINC3
  ⟨0x30, 0, 0xffffffff, 0, 0, 0, 0⟩,  -- COINC4
  ⟨0x34, 0, 0xffffff, 0, 0, 0, 0⟩,  -- OVR
  ⟨0x38, 0x1f1f1f1f, 0, 0, 0, 0, 0x18181818⟩,  -- GLSEL
  ⟨0x3c, 0, 0, 0, 0, 0, 0⟩,  -- GLEVEL
  ⟨0x40, 0xffffff, 0, 0, 0, 0, 0⟩,  -- EVINCFG
  ⟨0x44, 0xff, 0, 0, 0, 0, 0⟩,  -- SRCSEL
  ⟨0x48, 0, 0, 0, 0, 0, 0⟩,  -- SRCCOUNT
  ⟨0x4c, 0, 0, 0, 0, 0, 0⟩,  -- HOPDROP
  ⟨0x50, 0, 0, 0, 0, 0, 0⟩,  -- DELIVERED
  ⟨0x54, 0, 0, 0, 0, 0, 0⟩,  -- GATED
  ⟨0x58, 0, 0, 0, 0, 0, 0⟩,  -- COINC_LAST
  ⟨0x5c, 0, 0, 0, 0, 0, 0⟩  -- EVOUT_STAT
  ]

/-- EVENT: the registers of Table 10-7, part 1. -/
def regsEvent1 : List RegDef := [
  ⟨0x60, 0xffff1f1f, 0, 0, 0, 0, 0x10003⟩,  -- EVOUT0
  ⟨0x64, 0xffff1f1f, 0, 0, 0, 0, 0x10003⟩,  -- EVOUT1
  ⟨0x68, 0xffff1f1f, 0, 0, 0, 0, 0x10003⟩,  -- EVOUT2
  ⟨0x6c, 0xffff1f1f, 0, 0, 0, 0, 0x10003⟩,  -- EVOUT3
  ⟨0x70, 0xffff1f1f, 0, 0, 0, 0, 0x10003⟩,  -- EVOUT4
  ⟨0x74, 0xffff1f1f, 0, 0, 0, 0, 0x10003⟩,  -- EVOUT5
  ⟨0x78, 0xffff1f1f, 0, 0, 0, 0, 0x10003⟩,  -- EVOUT6
  ⟨0x7c, 0xffff1f1f, 0, 0, 0, 0, 0x10003⟩,  -- EVOUT7
  ⟨0x80, 0xffff001f, 0, 0, 0, 0, 0⟩,  -- TMR0_CFG
  ⟨0x84, 0xffffffff, 0, 0, 0, 0, 0⟩,  -- TMR0_DELAY
  ⟨0x88, 0xffffffff, 0, 0, 0, 0, 0x1⟩,  -- TMR0_PERIOD
  ⟨0x8c, 0, 0, 0, 0, 0, 0⟩,  -- TMR0_STAT
  ⟨0x90, 0xffff001f, 0, 0, 0, 0, 0⟩,  -- TMR1_CFG
  ⟨0x94, 0xffffffff, 0, 0, 0, 0, 0⟩,  -- TMR1_DELAY
  ⟨0x98, 0xffffffff, 0, 0, 0, 0, 0x1⟩,  -- TMR1_PERIOD
  ⟨0x9c, 0, 0, 0, 0, 0, 0⟩,  -- TMR1_STAT
  ⟨0xa0, 0xffff001f, 0, 0, 0, 0, 0⟩,  -- TMR2_CFG
  ⟨0xa4, 0xffffffff, 0, 0, 0, 0, 0⟩,  -- TMR2_DELAY
  ⟨0xa8, 0xffffffff, 0, 0, 0, 0, 0x1⟩,  -- TMR2_PERIOD
  ⟨0xac, 0, 0, 0, 0, 0, 0⟩,  -- TMR2_STAT
  ⟨0xb0, 0xffff001f, 0, 0, 0, 0, 0⟩,  -- TMR3_CFG
  ⟨0xb4, 0xffffffff, 0, 0, 0, 0, 0⟩,  -- TMR3_DELAY
  ⟨0xb8, 0xffffffff, 0, 0, 0, 0, 0x1⟩,  -- TMR3_PERIOD
  ⟨0xbc, 0, 0, 0, 0, 0, 0⟩  -- TMR3_STAT
  ]

/-- EVENT: the registers of Table 10-7, part 2. -/
def regsEvent2 : List RegDef := [
  ⟨0xc0, 0xffff001f, 0, 0, 0, 0, 0⟩,  -- TMR4_CFG
  ⟨0xc4, 0xffffffff, 0, 0, 0, 0, 0⟩,  -- TMR4_DELAY
  ⟨0xc8, 0xffffffff, 0, 0, 0, 0, 0x1⟩,  -- TMR4_PERIOD
  ⟨0xcc, 0, 0, 0, 0, 0, 0⟩,  -- TMR4_STAT
  ⟨0xd0, 0xffff001f, 0, 0, 0, 0, 0⟩,  -- TMR5_CFG
  ⟨0xd4, 0xffffffff, 0, 0, 0, 0, 0⟩,  -- TMR5_DELAY
  ⟨0xd8, 0xffffffff, 0, 0, 0, 0, 0x1⟩,  -- TMR5_PERIOD
  ⟨0xdc, 0, 0, 0, 0, 0, 0⟩,  -- TMR5_STAT
  ⟨0xe0, 0xffff001f, 0, 0, 0, 0, 0⟩,  -- TMR6_CFG
  ⟨0xe4, 0xffffffff, 0, 0, 0, 0, 0⟩,  -- TMR6_DELAY
  ⟨0xe8, 0xffffffff, 0, 0, 0, 0, 0x1⟩,  -- TMR6_PERIOD
  ⟨0xec, 0, 0, 0, 0, 0, 0⟩,  -- TMR6_STAT
  ⟨0xf0, 0xffff001f, 0, 0, 0, 0, 0⟩,  -- TMR7_CFG
  ⟨0xf4, 0xffffffff, 0, 0, 0, 0, 0⟩,  -- TMR7_DELAY
  ⟨0xf8, 0xffffffff, 0, 0, 0, 0, 0x1⟩,  -- TMR7_PERIOD
  ⟨0xfc, 0, 0, 0, 0, 0, 0⟩,  -- TMR7_STAT
  ⟨0x100, 0x3ff, 0, 0, 0, 0, 0⟩,  -- TSCAP0_CFG
  ⟨0x104, 0, 0, 0, 0, 0, 0⟩,  -- TSCAP0_T_LO
  ⟨0x108, 0, 0, 0, 0, 0, 0⟩,  -- TSCAP0_T_HI
  ⟨0x10c, 0, 0, 0, 0, 0, 0⟩,  -- TSCAP0_COUNT
  ⟨0x110, 0x3ff, 0, 0, 0, 0, 0⟩,  -- TSCAP1_CFG
  ⟨0x114, 0, 0, 0, 0, 0, 0⟩,  -- TSCAP1_T_LO
  ⟨0x118, 0, 0, 0, 0, 0, 0⟩,  -- TSCAP1_T_HI
  ⟨0x11c, 0, 0, 0, 0, 0, 0⟩  -- TSCAP1_COUNT
  ]

/-- EVENT: the registers of Table 10-7, part 3. -/
def regsEvent3 : List RegDef := [
  ⟨0x120, 0x3ff, 0, 0, 0, 0, 0⟩,  -- TSCAP2_CFG
  ⟨0x124, 0, 0, 0, 0, 0, 0⟩,  -- TSCAP2_T_LO
  ⟨0x128, 0, 0, 0, 0, 0, 0⟩,  -- TSCAP2_T_HI
  ⟨0x12c, 0, 0, 0, 0, 0, 0⟩,  -- TSCAP2_COUNT
  ⟨0x130, 0x3ff, 0, 0, 0, 0, 0⟩,  -- TSCAP3_CFG
  ⟨0x134, 0, 0, 0, 0, 0, 0⟩,  -- TSCAP3_T_LO
  ⟨0x138, 0, 0, 0, 0, 0, 0⟩,  -- TSCAP3_T_HI
  ⟨0x13c, 0, 0, 0, 0, 0, 0⟩,  -- TSCAP3_COUNT
  ⟨0x140, 0x3ff, 0, 0, 0, 0, 0⟩,  -- TSCAP4_CFG
  ⟨0x144, 0, 0, 0, 0, 0, 0⟩,  -- TSCAP4_T_LO
  ⟨0x148, 0, 0, 0, 0, 0, 0⟩,  -- TSCAP4_T_HI
  ⟨0x14c, 0, 0, 0, 0, 0, 0⟩,  -- TSCAP4_COUNT
  ⟨0x150, 0x3ff, 0, 0, 0, 0, 0⟩,  -- TSCAP5_CFG
  ⟨0x154, 0, 0, 0, 0, 0, 0⟩,  -- TSCAP5_T_LO
  ⟨0x158, 0, 0, 0, 0, 0, 0⟩,  -- TSCAP5_T_HI
  ⟨0x15c, 0, 0, 0, 0, 0, 0⟩,  -- TSCAP5_COUNT
  ⟨0x160, 0x3ff, 0, 0, 0, 0, 0⟩,  -- TSCAP6_CFG
  ⟨0x164, 0, 0, 0, 0, 0, 0⟩,  -- TSCAP6_T_LO
  ⟨0x168, 0, 0, 0, 0, 0, 0⟩,  -- TSCAP6_T_HI
  ⟨0x16c, 0, 0, 0, 0, 0, 0⟩,  -- TSCAP6_COUNT
  ⟨0x170, 0x3ff, 0, 0, 0, 0, 0⟩,  -- TSCAP7_CFG
  ⟨0x174, 0, 0, 0, 0, 0, 0⟩,  -- TSCAP7_T_LO
  ⟨0x178, 0, 0, 0, 0, 0, 0⟩,  -- TSCAP7_T_HI
  ⟨0x17c, 0, 0, 0, 0, 0, 0⟩  -- TSCAP7_COUNT
  ]

/-- EVENT: the registers of Table 10-7. -/
def regsEvent : List RegDef := regsEvent0 ++ regsEvent1 ++ regsEvent2 ++ regsEvent3

/-- CLOCK: the registers of Table 11-8, part 0. -/
def regsClock0 : List RegDef := [
  ⟨0, 0x10, 0, 0, 0x10, 0x10, 0x10⟩,  -- CTRL
  ⟨0x4, 0, 0xff, 0, 0, 0, 0⟩,  -- STATUS
  ⟨0x8, 0, 0, 0, 0, 0, 0⟩,  -- STATE
  ⟨0xc, 0xffff0f33, 0, 0, 0, 0, 0x3e80030⟩,  -- RELOCK
  ⟨0x10, 0x7f, 0, 0, 0, 0, 0xa⟩,  -- SLEWCFG
  ⟨0x14, 0, 0, 0, 0, 0, 0⟩,  -- REFMON
  ⟨0x18, 0, 0, 0, 0, 0, 0⟩,  -- OFFSET_LO
  ⟨0x1c, 0, 0, 0, 0, 0, 0⟩,  -- OFFSET_HI
  ⟨0x20, 0, 0, 0, 0, 0, 0⟩,  -- STEER_REM
  ⟨0x24, 0, 0, 0, 0, 0, 0⟩,  -- GLIDE_TIME
  ⟨0x28, 0, 0, 0, 0, 0, 0⟩,  -- GLIDE_COUNT
  ⟨0x2c, 0, 0, 0, 0, 0, 0⟩,  -- JUMP_COUNT
  ⟨0x30, 0, 0, 0, 0, 0, 0⟩,  -- STEP_COUNT
  ⟨0x34, 0, 0, 0, 0, 0, 0⟩,  -- TRACE_TIME
  ⟨0x38, 0, 0, 0, 0, 0, 0⟩,  -- EVT_LO
  ⟨0x3c, 0, 0, 0, 0, 0, 0⟩,  -- EVT_HI
  ⟨0x40, 0x3f11, 0, 0, 0, 0, 0⟩,  -- REFOUT
  ⟨0x44, 0xffff, 0, 0, 0xffff, 0, 0⟩,  -- REFIN_TRIM
  ⟨0x48, 0, 0, 0, 0, 0, 0⟩,  -- BACKUP_ERR
  ⟨0x4c, 0, 0, 0, 0, 0, 0⟩,  -- XTAL_ERR
  ⟨0x50, 0x33, 0, 0, 0x33, 0, 0⟩,  -- LOCK_PIN
  ⟨0x54, 0xf, 0, 0, 0, 0, 0⟩,  -- CROSS_SEL
  ⟨0x58, 0, 0, 0, 0, 0, 0⟩,  -- CROSS_LAT
  ⟨0x5c, 0, 0, 0, 0, 0, 0⟩  -- X32_STAT
  ]

/-- CLOCK: the registers of Table 11-8, part 1. -/
def regsClock1 : List RegDef := [
  ⟨0x80, 0xf07, 0, 0, 0, 0, 0xa02⟩,  -- L0_LCFG
  ⟨0x84, 0, 0, 0, 0, 0, 0⟩,  -- L0_LSTAT
  ⟨0x88, 0xfffff, 0, 0, 0xfffff, 0xfffff, 0x8001⟩,  -- L0_DIV
  ⟨0x8c, 0, 0, 0, 0, 0, 0⟩,  -- L0_PHASE
  ⟨0x90, 0, 0, 0, 0, 0, 0⟩,  -- L0_TUNE
  ⟨0x94, 0, 0, 0, 0, 0, 0⟩,  -- L0_LOLCNT
  ⟨0xa0, 0xf07, 0, 0, 0, 0, 0xa02⟩,  -- L1_LCFG
  ⟨0xa4, 0, 0, 0, 0, 0, 0⟩,  -- L1_LSTAT
  ⟨0xa8, 0xfffff, 0, 0, 0xfffff, 0xfffff, 0x28005⟩,  -- L1_DIV
  ⟨0xac, 0, 0, 0, 0, 0, 0⟩,  -- L1_PHASE
  ⟨0xb0, 0, 0, 0, 0, 0, 0⟩,  -- L1_TUNE
  ⟨0xb4, 0, 0, 0, 0, 0, 0⟩,  -- L1_LOLCNT
  ⟨0xc0, 0xf07, 0, 0, 0, 0, 0xa02⟩,  -- L2_LCFG
  ⟨0xc4, 0, 0, 0, 0, 0, 0⟩,  -- L2_LSTAT
  ⟨0xc8, 0xfffff, 0, 0, 0xfffff, 0xfffff, 0x28005⟩,  -- L2_DIV
  ⟨0xcc, 0, 0, 0, 0, 0, 0⟩,  -- L2_PHASE
  ⟨0xd0, 0, 0, 0, 0, 0, 0⟩,  -- L2_TUNE
  ⟨0xd4, 0, 0, 0, 0, 0, 0⟩,  -- L2_LOLCNT
  ⟨0xe0, 0xf07, 0, 0, 0, 0, 0xa02⟩,  -- L3_LCFG
  ⟨0xe4, 0, 0, 0, 0, 0, 0⟩,  -- L3_LSTAT
  ⟨0xe8, 0xfffff, 0, 0, 0xfffff, 0xfffff, 0x8001⟩,  -- L3_DIV
  ⟨0xec, 0, 0, 0, 0, 0, 0⟩,  -- L3_PHASE
  ⟨0xf0, 0, 0, 0, 0, 0, 0⟩,  -- L3_TUNE
  ⟨0xf4, 0, 0, 0, 0, 0, 0⟩  -- L3_LOLCNT
  ]

/-- CLOCK: the registers of Table 11-8. -/
def regsClock : List RegDef := regsClock0 ++ regsClock1

/-- POWER: the registers of Table 16-11, part 0. -/
def regsPower0 : List RegDef := [
  ⟨0, 0x3, 0, 0, 0x3, 0x3, 0x2⟩,  -- CTRL
  ⟨0x4, 0, 0x7f, 0, 0, 0, 0⟩,  -- STATUS
  ⟨0x8, 0xffff, 0, 0, 0xffff, 0xffff, 0x4650⟩,  -- PKG_CAP
  ⟨0xc, 0, 0, 0, 0, 0, 0⟩,  -- PKG_RSV
  ⟨0x10, 0, 0, 0, 0, 0, 0⟩,  -- CDIE_RSV
  ⟨0x14, 0, 0, 0, 0, 0, 0⟩,  -- ADIE0_RSV
  ⟨0x18, 0, 0, 0, 0, 0, 0⟩,  -- ADIE1_RSV
  ⟨0x1c, 0, 0, 0, 0, 0, 0⟩,  -- RGN0_RSV
  ⟨0x20, 0, 0, 0, 0, 0, 0⟩,  -- RGN1_RSV
  ⟨0x24, 0, 0, 0, 0, 0, 0⟩,  -- RGN2_RSV
  ⟨0x28, 0, 0, 0, 0, 0, 0⟩,  -- RGN3_RSV
  ⟨0x2c, 0, 0, 0, 0, 0, 0x13881388⟩,  -- LIM_ADIE
  ⟨0x30, 0, 0, 0, 0, 0, 0x1770⟩,  -- LIM_CDIE
  ⟨0x34, 0xffff, 0, 0, 0xffff, 0xffff, 0x569⟩,  -- DERATE
  ⟨0x38, 0xffffffff, 0, 0, 0, 0, 0x6403e8⟩,  -- QCFG
  ⟨0x3c, 0, 0, 0, 0, 0, 0⟩,  -- QSTAT
  ⟨0x40, 0, 0, 0, 0, 0, 0⟩,  -- LAST_REFUSE
  ⟨0x44, 0, 0, 0, 0, 0, 0⟩,  -- GRANTS
  ⟨0x48, 0, 0, 0, 0, 0, 0⟩,  -- DENIES
  ⟨0x4c, 0, 0, 0, 0, 0, 0⟩,  -- TIMEOUTS
  ⟨0x50, 0xffff, 0, 0, 0, 0, 0⟩,  -- PEAK_PKG
  ⟨0x54, 0x7, 0, 0, 0, 0, 0⟩,  -- HSEL
  ⟨0x58, 0, 0, 0, 0, 0, 0⟩,  -- HSTAT
  ⟨0x5c, 0xffff, 0, 0, 0, 0, 0x3e8⟩  -- MODECFG
  ]

/-- POWER: the registers of Table 16-11, part 1. -/
def regsPower1 : List RegDef := [
  ⟨0x60, 0, 0, 0, 0, 0, 0⟩,  -- MODE_LAST
  ⟨0x64, 0, 0, 0, 0, 0, 0⟩,  -- SAFE_CAUSE
  ⟨0x68, 0, 0, 0, 0, 0, 0⟩,  -- SAFE_TIME_LO
  ⟨0x6c, 0, 0, 0, 0, 0, 0⟩,  -- SAFE_TIME_HI
  ⟨0x70, 0, 0, 0, 0, 0, 0⟩,  -- VMON
  ⟨0x74, 0, 0, 0, 0, 0, 0⟩,  -- DIPS
  ⟨0x78, 0, 0, 0, 0, 0, 0x145007d0⟩,  -- FIXED
  ⟨0x7c, 0, 0, 0, 0, 0, 0x78⟩  -- RGN_BASE
  ]

/-- POWER: the registers of Table 16-11. -/
def regsPower : List RegDef := regsPower0 ++ regsPower1

/-- PATROL: the registers of R382, Table 16-13, part 0. -/
def regsPatrol0 : List RegDef := [
  ⟨0, 0x1, 0, 0, 0, 0, 0⟩,  -- CTRL
  ⟨0x4, 0, 0x7ff, 0, 0, 0, 0⟩,  -- STATUS
  ⟨0x8, 0, 0x1fff, 0, 0, 0, 0⟩,  -- FAULTN
  ⟨0xc, 0, 0, 0, 0, 0, 0⟩,  -- RGN_STATE
  ⟨0x10, 0, 0, 0, 0, 0, 0⟩,  -- LOG_HEAD
  ⟨0x14, 0xff, 0, 0, 0, 0, 0⟩,  -- LOG_SEL
  ⟨0x18, 0, 0, 0, 0, 0, 0⟩,  -- LOG_W0
  ⟨0x1c, 0, 0, 0, 0, 0, 0⟩,  -- LOG_W1
  ⟨0x20, 0, 0, 0, 0, 0, 0⟩,  -- LOG_W2
  ⟨0x24, 0, 0, 0, 0, 0, 0⟩,  -- LOG_W3
  ⟨0x28, 0, 0, 0, 0, 0, 0⟩,  -- TRANSIENTS
  ⟨0x2c, 0, 0, 0, 0, 0, 0⟩,  -- LASTINGS
  ⟨0x30, 0, 0, 0, 0, 0, 0⟩,  -- LAST_LASTING
  ⟨0x34, 0, 0, 0, 0, 0, 0⟩,  -- TRK_OVF
  ⟨0x38, 0, 0, 0, 0, 0, 0⟩,  -- RECOVERIES
  ⟨0x3c, 0x8f3fffff, 0, 0, 0x8f3fffff, 0, 0⟩,  -- TEST
  ⟨0x40, 0x1fffffff, 0, 0, 0x1fffffff, 0x1fffffff, 0x103ea60⟩,  -- CLS0_CFG
  ⟨0x44, 0, 0, 0, 0, 0, 0⟩,  -- CLS0_CNT
  ⟨0x48, 0, 0, 0, 0, 0, 0⟩,  -- CLS0_LAST
  ⟨0x50, 0x1fffffff, 0, 0, 0x1fffffff, 0x1fffffff, 0x2c803e8⟩,  -- CLS1_CFG
  ⟨0x54, 0, 0, 0, 0, 0, 0⟩,  -- CLS1_CNT
  ⟨0x58, 0, 0, 0, 0, 0, 0⟩,  -- CLS1_LAST
  ⟨0x60, 0x1fffffff, 0, 0, 0x1fffffff, 0x1fffffff, 0x20a03e8⟩,  -- CLS2_CFG
  ⟨0x64, 0, 0, 0, 0, 0, 0⟩  -- CLS2_CNT
  ]

/-- PATROL: the registers of R382, Table 16-13, part 1. -/
def regsPatrol1 : List RegDef := [
  ⟨0x68, 0, 0, 0, 0, 0, 0⟩,  -- CLS2_LAST
  ⟨0x70, 0x1fffffff, 0, 0, 0x1fffffff, 0x1fffffff, 0x46403e8⟩,  -- CLS3_CFG
  ⟨0x74, 0, 0, 0, 0, 0, 0⟩,  -- CLS3_CNT
  ⟨0x78, 0, 0, 0, 0, 0, 0⟩,  -- CLS3_LAST
  ⟨0x80, 0x1fffffff, 0, 0, 0x1fffffff, 0x1fffffff, 0x810ea60⟩,  -- CLS4_CFG
  ⟨0x84, 0, 0, 0, 0, 0, 0⟩,  -- CLS4_CNT
  ⟨0x88, 0, 0, 0, 0, 0, 0⟩,  -- CLS4_LAST
  ⟨0x90, 0x1fffffff, 0, 0, 0x1fffffff, 0x1fffffff, 0xc0403e8⟩,  -- CLS5_CFG
  ⟨0x94, 0, 0, 0, 0, 0, 0⟩,  -- CLS5_CNT
  ⟨0x98, 0, 0, 0, 0, 0, 0⟩,  -- CLS5_LAST
  ⟨0xa0, 0x1fffffff, 0, 0, 0x1fffffff, 0x1fffffff, 0xc0a03e8⟩,  -- CLS6_CFG
  ⟨0xa4, 0, 0, 0, 0, 0, 0⟩,  -- CLS6_CNT
  ⟨0xa8, 0, 0, 0, 0, 0, 0⟩,  -- CLS6_LAST
  ⟨0xb0, 0x1fffffff, 0, 0, 0x1fffffff, 0x1fffffff, 0x810ea60⟩,  -- CLS7_CFG
  ⟨0xb4, 0, 0, 0, 0, 0, 0⟩,  -- CLS7_CNT
  ⟨0xb8, 0, 0, 0, 0, 0, 0⟩,  -- CLS7_LAST
  ⟨0xc0, 0x1fffffff, 0, 0, 0x1fffffff, 0x1fffffff, 0x810ea60⟩,  -- CLS8_CFG
  ⟨0xc4, 0, 0, 0, 0, 0, 0⟩,  -- CLS8_CNT
  ⟨0xc8, 0, 0, 0, 0, 0, 0⟩,  -- CLS8_LAST
  ⟨0xd0, 0, 0, 0, 0, 0, 0⟩,  -- DIS_PD_LO
  ⟨0xd4, 0, 0, 0, 0, 0, 0⟩,  -- DIS_PD_HI
  ⟨0xd8, 0xffffff, 0, 0, 0xffffff, 0xffffff, 0x737373⟩,  -- TEMP_LIM
  ⟨0xdc, 0, 0, 0, 0, 0, 0⟩,  -- TEMP_NOW
  ⟨0xe0, 0xffffff, 0, 0, 0, 0, 0⟩  -- TEMP_MAX
  ]

/-- PATROL: the registers of R382, Table 16-13. -/
def regsPatrol : List RegDef := regsPatrol0 ++ regsPatrol1

/-- CAL: the registers of Table 15-9, part 0. -/
def regsCal0 : List RegDef := [
  ⟨0, 0, 0, 0, 0, 0, 0⟩,  -- STATE
  ⟨0x4, 0, 0xff, 0, 0, 0, 0⟩,  -- STATUS
  ⟨0x8, 0, 0, 0, 0, 0, 0⟩,  -- PEND_PD_LO
  ⟨0xc, 0, 0, 0, 0, 0, 0⟩,  -- PEND_PD_HI
  ⟨0x10, 0, 0, 0, 0, 0, 0⟩,  -- PEND_A
  ⟨0x14, 0, 0, 0, 0, 0, 0⟩,  -- PEND_LC
  ⟨0x18, 0, 0, 0, 0, 0, 0⟩,  -- REF_VAL_LO
  ⟨0x1c, 0, 0, 0, 0, 0, 0⟩,  -- REF_VAL_HI
  ⟨0x20, 0, 0, 0, 0, 0, 0⟩,  -- RES_VAL_LO
  ⟨0x24, 0, 0, 0, 0, 0, 0⟩,  -- RES_VAL_HI
  ⟨0x28, 0, 0, 0, 0, 0, 0⟩,  -- REF_ID
  ⟨0x2c, 0, 0, 0, 0, 0, 0⟩,  -- RES_ID
  ⟨0x30, 0, 0, 0, 0, 0, 0⟩,  -- REF_DEV
  ⟨0x34, 0, 0, 0, 0, 0, 0⟩,  -- REF_DRIFT
  ⟨0x38, 0x80070f7f, 0, 0, 0, 0, 0⟩,  -- SEL
  ⟨0x3c, 0, 0, 0, 0, 0, 0⟩,  -- RESIDUAL
  ⟨0x40, 0, 0, 0, 0, 0, 0⟩,  -- GAIN_MOVE
  ⟨0x44, 0, 0, 0, 0, 0, 0⟩,  -- OFFS_MOVE
  ⟨0x48, 0, 0, 0, 0, 0, 0⟩,  -- INL_MAX
  ⟨0x4c, 0, 0, 0, 0, 0, 0⟩,  -- TIMING
  ⟨0x50, 0, 0, 0, 0, 0, 0⟩,  -- XDELAY
  ⟨0x54, 0, 0, 0, 0, 0, 0⟩,  -- EYE
  ⟨0x58, 0, 0, 0, 0, 0, 0⟩,  -- REJ_INFO
  ⟨0x5c, 0, 0, 0, 0, 0, 0⟩  -- REC_INFO
  ]

/-- CAL: the registers of Table 15-9, part 1. -/
def regsCal1 : List RegDef := [
  ⟨0x60, 0, 0, 0, 0, 0, 0⟩,  -- REC_TIME
  ⟨0x64, 0, 0, 0, 0, 0, 0⟩,  -- REC_TEMP
  ⟨0x68, 0, 0, 0, 0, 0, 0⟩,  -- AUDIT_SEQ_LO
  ⟨0x6c, 0, 0, 0, 0, 0, 0⟩,  -- AUDIT_SEQ_HI
  ⟨0x70, 0, 0, 0, 0, 0, 0⟩,  -- AUDIT_STAT
  ⟨0x74, 0, 0, 0, 0, 0, 0⟩,  -- COMMITS
  ⟨0x78, 0, 0, 0, 0, 0, 0⟩,  -- REJECTS
  ⟨0x7c, 0, 0, 0, 0, 0, 0⟩  -- RUNS
  ]

/-- CAL: the registers of Table 15-9. -/
def regsCal : List RegDef := regsCal0 ++ regsCal1

/-- NVM: the registers of Table 17-9. -/
def regsNvm : List RegDef := [
  ⟨0, 0x1, 0, 0, 0, 0, 0x1⟩,  -- CTRL
  ⟨0x4, 0, 0x3f, 0, 0, 0, 0⟩,  -- STATUS
  ⟨0x8, 0, 0, 0, 0, 0, 0⟩,  -- STATE
  ⟨0xc, 0, 0, 0, 0, 0, 0⟩,  -- OP_ADDR
  ⟨0x10, 0, 0, 0, 0, 0, 0⟩,  -- PROGS
  ⟨0x14, 0, 0, 0, 0, 0, 0⟩,  -- ERASES
  ⟨0x18, 0, 0, 0, 0, 0, 0⟩,  -- FAILS
  ⟨0x1c, 0, 0, 0, 0, 0, 0⟩,  -- TBL_SEQ
  ⟨0x20, 0, 0, 0, 0, 0, 0⟩,  -- BOOT
  ⟨0x24, 0, 0, 0, 0, 0, 0⟩,  -- SLOTA_VER
  ⟨0x28, 0, 0, 0, 0, 0, 0⟩,  -- SLOTB_VER
  ⟨0x2c, 0, 0, 0, 0, 0, 0⟩,  -- STARTUP
  ⟨0x30, 0, 0, 0, 0, 0, 0⟩,  -- UREC_BAD_LO
  ⟨0x34, 0, 0, 0, 0, 0, 0⟩,  -- UREC_BAD_HI
  ⟨0x38, 0, 0, 0, 0, 0, 0⟩,  -- LREC_BAD
  ⟨0x3c, 0, 0, 0, 0, 0, 0⟩  -- RETIRED_MAP
  ]

/-- AON: the registers of Table 16-14, part 0. -/
def regsAon0 : List RegDef := [
  ⟨0, 0x7, 0, 0, 0x1, 0, 0⟩,  -- CTRL
  ⟨0x4, 0, 0x1f, 0, 0, 0, 0⟩,  -- STATUS
  ⟨0x8, 0xffffffff, 0, 0, 0xffffffff, 0, 0⟩,  -- RTC_LO
  ⟨0xc, 0xffff, 0, 0, 0xffff, 0, 0⟩,  -- RTC_HI
  ⟨0x10, 0, 0, 0, 0, 0, 0⟩,  -- RTC_SUB
  ⟨0x14, 0xffffffff, 0, 0, 0, 0, 0⟩,  -- ALARM_LO
  ⟨0x18, 0xffff, 0, 0, 0, 0, 0⟩,  -- ALARM_HI
  ⟨0x1c, 0xffff0011, 0, 0, 0xffff0011, 0xffff0011, 0x3e80000⟩,  -- WDOG_CFG
  ⟨0x20, 0xffffffff, 0, 0, 0, 0, 0⟩,  -- WDOG_KICK
  ⟨0x24, 0, 0, 0, 0, 0, 0⟩,  -- WDOG_CNT
  ⟨0x28, 0, 0xff00, 0, 0, 0, 0⟩,  -- CMP_STATE
  ⟨0x2c, 0, 0, 0, 0, 0, 0⟩,  -- WAKE_CAUSE
  ⟨0x30, 0, 0, 0, 0, 0, 0⟩,  -- SLEEP_COUNT
  ⟨0x34, 0, 0, 0, 0, 0, 0⟩,  -- VAON_MON
  ⟨0x38, 0xffffffff, 0, 0, 0, 0, 0⟩,  -- SCRATCH0
  ⟨0x3c, 0xffffffff, 0, 0, 0, 0, 0⟩,  -- SCRATCH1
  ⟨0x40, 0x77f7, 0, 0, 0x77f7, 0x77f7, 0⟩,  -- CMP0_CFG
  ⟨0x44, 0xfff0fff, 0, 0, 0xfff0fff, 0xfff0fff, 0⟩,  -- CMP0_THR
  ⟨0x48, 0x77f7, 0, 0, 0x77f7, 0x77f7, 0⟩,  -- CMP1_CFG
  ⟨0x4c, 0xfff0fff, 0, 0, 0xfff0fff, 0xfff0fff, 0⟩,  -- CMP1_THR
  ⟨0x50, 0x77f7, 0, 0, 0x77f7, 0x77f7, 0⟩,  -- CMP2_CFG
  ⟨0x54, 0xfff0fff, 0, 0, 0xfff0fff, 0xfff0fff, 0⟩,  -- CMP2_THR
  ⟨0x58, 0x77f7, 0, 0, 0x77f7, 0x77f7, 0⟩,  -- CMP3_CFG
  ⟨0x5c, 0xfff0fff, 0, 0, 0xfff0fff, 0xfff0fff, 0⟩  -- CMP3_THR
  ]

/-- AON: the registers of Table 16-14, part 1. -/
def regsAon1 : List RegDef := [
  ⟨0x60, 0x77f7, 0, 0, 0x77f7, 0x77f7, 0⟩,  -- CMP4_CFG
  ⟨0x64, 0xfff0fff, 0, 0, 0xfff0fff, 0xfff0fff, 0⟩,  -- CMP4_THR
  ⟨0x68, 0x77f7, 0, 0, 0x77f7, 0x77f7, 0⟩,  -- CMP5_CFG
  ⟨0x6c, 0xfff0fff, 0, 0, 0xfff0fff, 0xfff0fff, 0⟩,  -- CMP5_THR
  ⟨0x70, 0x77f7, 0, 0, 0x77f7, 0x77f7, 0⟩,  -- CMP6_CFG
  ⟨0x74, 0xfff0fff, 0, 0, 0xfff0fff, 0xfff0fff, 0⟩,  -- CMP6_THR
  ⟨0x78, 0x77f7, 0, 0, 0x77f7, 0x77f7, 0⟩,  -- CMP7_CFG
  ⟨0x7c, 0xfff0fff, 0, 0, 0xfff0fff, 0xfff0fff, 0⟩  -- CMP7_THR
  ]

/-- AON: the registers of Table 16-14. -/
def regsAon : List RegDef := regsAon0 ++ regsAon1

/-- GYDEN: the registers of Table 10-12, part 0. -/
def regsGyden0 : List RegDef := [
  ⟨0, 0, 0, 0, 0, 0, 0⟩,  -- CONFIG
  ⟨0x4, 0, 0x17f, 0, 0, 0, 0⟩,  -- STATUS
  ⟨0x8, 0, 0, 0, 0, 0, 0⟩,  -- STATE
  ⟨0xc, 0, 0, 0, 0, 0, 0x3e8⟩,  -- LSYS
  ⟨0x10, 0, 0, 0, 0, 0, 0⟩,  -- DLY
  ⟨0x14, 0, 0, 0, 0, 0, 0⟩,  -- DLY_MEAS
  ⟨0x18, 0, 0, 0, 0, 0, 0⟩,  -- RTT
  ⟨0x1c, 0xffff, 0, 0, 0xffff, 0, 0⟩,  -- DLY_TRIM
  ⟨0x20, 0, 0, 0, 0, 0, 0⟩,  -- PRESENT
  ⟨0x24, 0, 0, 0, 0, 0, 0⟩,  -- ARMED_NODES
  ⟨0x28, 0, 0, 0, 0, 0, 0⟩,  -- SYSTIME_LO
  ⟨0x2c, 0, 0, 0, 0, 0, 0⟩,  -- SYSTIME_HI
  ⟨0x30, 0, 0, 0, 0, 0, 0⟩,  -- SYSTIME_FRAC
  ⟨0x34, 0, 0, 0, 0, 0, 0⟩,  -- SYNCERR
  ⟨0x38, 0xffff, 0, 0, 0, 0, 0⟩,  -- GEVCFG
  ⟨0x3c, 0x9f9f9f9f, 0, 0, 0, 0, 0⟩,  -- GEVLSRC0
  ⟨0x40, 0x9f9f9f9f, 0, 0, 0, 0, 0⟩,  -- GEVLSRC1
  ⟨0x44, 0, 0, 0, 0, 0, 0⟩,  -- GEVLVL
  ⟨0x48, 0, 0, 0, 0, 0, 0⟩,  -- GEV_TX
  ⟨0x4c, 0, 0, 0, 0, 0, 0⟩,  -- GEV_RX
  ⟨0x50, 0x11f, 0, 0, 0, 0, 0⟩,  -- GDAT_CTRL
  ⟨0x54, 0, 0x2, 0, 0, 0, 0⟩,  -- GDAT_STAT
  ⟨0x58, 0xffffffff, 0, 0, 0, 0, 0⟩,  -- GDAT_TX0
  ⟨0x5c, 0xffffffff, 0, 0, 0, 0, 0⟩  -- GDAT_TX1
  ]

/-- GYDEN: the registers of Table 10-12, part 1. -/
def regsGyden1 : List RegDef := [
  ⟨0x60, 0xffffffff, 0, 0, 0, 0, 0⟩,  -- GDAT_TX2
  ⟨0x64, 0xffffffff, 0, 0, 0, 0, 0⟩,  -- GDAT_TX3
  ⟨0x68, 0, 0, 0, 0, 0, 0⟩,  -- GDAT_RX0
  ⟨0x6c, 0, 0, 0, 0, 0, 0⟩,  -- GDAT_RX1
  ⟨0x70, 0, 0, 0, 0, 0, 0⟩,  -- GDAT_RX2
  ⟨0x74, 0, 0, 0, 0, 0, 0⟩,  -- GDAT_RX3
  ⟨0x78, 0, 0, 0, 0, 0, 0⟩,  -- GDAT_CRCERR
  ⟨0x7c, 0, 0, 0, 0, 0, 0⟩,  -- GCLK_LOSS
  ⟨0x80, 0xf, 0, 0, 0, 0, 0⟩,  -- NODE_SEL
  ⟨0x84, 0, 0, 0, 0, 0, 0⟩,  -- NODE_DLY
  ⟨0x88, 0, 0, 0, 0, 0, 0⟩,  -- NODE_STAT
  ⟨0x8c, 0, 0, 0, 0, 0, 0⟩,  -- TX_DROP
  ⟨0x90, 0, 0, 0, 0, 0, 0⟩,  -- LASTEV_LO
  ⟨0x94, 0, 0, 0, 0, 0, 0⟩,  -- LASTEV_HI
  ⟨0x98, 0, 0, 0, 0, 0, 0⟩,  -- LASTEV_LINE
  ⟨0x9c, 0, 0, 0, 0, 0, 0⟩  -- EPOCHS
  ]

/-- GYDEN: the registers of Table 10-12. -/
def regsGyden : List RegDef := regsGyden0 ++ regsGyden1

/-- DRAMC: the registers of Table 12-10, part 0. -/
def regsDramc0 : List RegDef := [
  ⟨0, 0x30f, 0, 0, 0x307, 0x7, 0xf⟩,  -- CTRL
  ⟨0x4, 0, 0x7ff, 0, 0, 0, 0⟩,  -- STATUS
  ⟨0x8, 0, 0, 0, 0, 0, 0⟩,  -- STATE
  ⟨0xc, 0, 0, 0, 0, 0, 0⟩,  -- FREQ
  ⟨0x10, 0, 0, 0, 0, 0, 0⟩,  -- ECC_CE
  ⟨0x14, 0, 0, 0, 0, 0, 0⟩,  -- ECC_CE_ADDR
  ⟨0x18, 0xff, 0, 0, 0, 0, 0x18⟩,  -- SCRUB_CFG
  ⟨0x1c, 0, 0, 0, 0, 0, 0⟩,  -- SCRUB_STAT
  ⟨0x20, 0xffff, 0, 0, 0xffff, 0xffff, 0x1000⟩,  -- RH_CFG
  ⟨0x24, 0, 0, 0, 0, 0, 0⟩,  -- RH_STAT
  ⟨0x28, 0, 0, 0, 0, 0, 0xf0000000⟩,  -- RH_LAST
  ⟨0x2c, 0, 0, 0, 0, 0, 0⟩,  -- RH_THROTTLE
  ⟨0x30, 0xf, 0, 0, 0, 0, 0x8⟩,  -- REF_CFG
  ⟨0x34, 0, 0, 0, 0, 0, 0⟩,  -- REF_STAT
  ⟨0x38, 0xffffffff, 0, 0, 0, 0, 0⟩,  -- LAT_RT0
  ⟨0x3c, 0xffffffff, 0, 0, 0, 0, 0⟩,  -- LAT_RT1
  ⟨0x40, 0xffffffff, 0, 0, 0xffffffff, 0xffffffff, 0⟩,  -- BANKMAP0_LO
  ⟨0x44, 0x3, 0, 0, 0x3, 0x3, 0⟩,  -- BANKMAP0_HI
  ⟨0x48, 0xffffffff, 0, 0, 0xffffffff, 0xffffffff, 0⟩,  -- BANKMAP1_LO
  ⟨0x4c, 0x3, 0, 0, 0x3, 0x3, 0⟩,  -- BANKMAP1_HI
  ⟨0x50, 0xffffffff, 0, 0, 0xffffffff, 0xffffffff, 0⟩,  -- BANKMAP2_LO
  ⟨0x54, 0x3, 0, 0, 0x3, 0x3, 0⟩,  -- BANKMAP2_HI
  ⟨0x58, 0xffffffff, 0, 0, 0xffffffff, 0xffffffff, 0⟩,  -- BANKMAP3_LO
  ⟨0x5c, 0x3, 0, 0, 0x3, 0x3, 0⟩  -- BANKMAP3_HI
  ]

/-- DRAMC: the registers of Table 12-10, part 1. -/
def regsDramc1 : List RegDef := [
  ⟨0x60, 0xffffffff, 0, 0, 0xffffffff, 0xffffffff, 0⟩,  -- BANKMAP4_LO
  ⟨0x64, 0x3, 0, 0, 0x3, 0x3, 0⟩,  -- BANKMAP4_HI
  ⟨0x68, 0xffffffff, 0, 0, 0xffffffff, 0xffffffff, 0⟩,  -- BANKMAP5_LO
  ⟨0x6c, 0x3, 0, 0, 0x3, 0x3, 0⟩,  -- BANKMAP5_HI
  ⟨0x70, 0, 0, 0, 0, 0, 0⟩,  -- BANKMAP_STAT
  ⟨0x74, 0, 0, 0, 0, 0, 0⟩,  -- FRZ_STAT
  ⟨0x78, 0, 0, 0, 0, 0, 0⟩,  -- FRZ_PADDR
  ⟨0x7c, 0, 0, 0, 0, 0, 0⟩,  -- FRZ_RADDR
  ⟨0x80, 0, 0, 0, 0, 0, 0⟩,  -- FRZ_COL
  ⟨0x84, 0, 0, 0, 0, 0, 0⟩,  -- FRZ_SEG
  ⟨0x88, 0, 0, 0, 0, 0, 0⟩,  -- FRZ_TIME_LO
  ⟨0x8c, 0, 0, 0, 0, 0, 0⟩,  -- FRZ_TIME_HI
  ⟨0x90, 0xff, 0, 0, 0, 0, 0x2d⟩,  -- TRAIN_CFG
  ⟨0x94, 0, 0, 0, 0, 0, 0⟩,  -- TRAIN_STAT
  ⟨0x98, 0xff, 0, 0, 0, 0, 0⟩,  -- TRAIN_SEL
  ⟨0x9c, 0, 0, 0, 0, 0, 0⟩,  -- EYE_RD
  ⟨0xa0, 0, 0, 0, 0, 0, 0⟩,  -- EYE_WR
  ⟨0xa4, 0, 0, 0, 0, 0, 0⟩,  -- EYE_CA
  ⟨0xa8, 0, 0, 0, 0, 0, 0⟩,  -- VREF
  ⟨0xac, 0, 0, 0, 0, 0, 0⟩,  -- WCK_STAT
  ⟨0xb0, 0xffffff, 0, 0, 0, 0, 0x40064⟩,  -- OSC_CFG
  ⟨0xb4, 0, 0, 0, 0, 0, 0⟩,  -- OSC_STAT
  ⟨0xb8, 0, 0, 0, 0, 0, 0⟩,  -- DRIFT_ADJ
  ⟨0xbc, 0, 0, 0, 0, 0, 0⟩  -- TRAIN_COUNT
  ]

/-- DRAMC: the registers of Table 12-10, part 2. -/
def regsDramc2 : List RegDef := [
  ⟨0xc0, 0, 0, 0, 0, 0, 0⟩,  -- FSP0_TIM0
  ⟨0xc4, 0, 0, 0, 0, 0, 0⟩,  -- FSP0_TIM1
  ⟨0xc8, 0, 0, 0, 0, 0, 0⟩,  -- FSP0_TIM2
  ⟨0xcc, 0, 0, 0, 0, 0, 0⟩,  -- FSP0_TIM3
  ⟨0xd0, 0, 0, 0, 0, 0, 0⟩,  -- FSP1_TIM0
  ⟨0xd4, 0, 0, 0, 0, 0, 0⟩,  -- FSP1_TIM1
  ⟨0xd8, 0, 0, 0, 0, 0, 0⟩,  -- FSP1_TIM2
  ⟨0xdc, 0, 0, 0, 0, 0, 0⟩,  -- FSP1_TIM3
  ⟨0xe0, 0xffff, 0, 0, 0, 0, 0x523⟩,  -- NRT_CAP
  ⟨0xe4, 0, 0, 0, 0, 0, 0⟩,  -- BW_RT0
  ⟨0xe8, 0, 0, 0, 0, 0, 0⟩,  -- BW_RT1
  ⟨0xec, 0, 0, 0, 0, 0, 0⟩,  -- BW_NRT
  ⟨0xf0, 0, 0, 0, 0, 0, 0⟩,  -- UTIL
  ⟨0xf4, 0, 0, 0, 0, 0, 0⟩,  -- TEMP
  ⟨0xf8, 0, 0, 0, 0, 0, 0⟩,  -- ZQ_STAT
  ⟨0xfc, 0, 0, 0, 0, 0, 0⟩,  -- RESUME_STAT
  ⟨0x100, 0, 0, 0, 0, 0, 0⟩,  -- ACT_WIN0
  ⟨0x104, 0, 0, 0, 0, 0, 0⟩,  -- RFM_CNT0
  ⟨0x108, 0, 0, 0, 0, 0, 0⟩,  -- REF_INS0
  ⟨0x10c, 0, 0, 0, 0, 0, 0⟩,  -- CE_CNT0
  ⟨0x110, 0, 0, 0, 0, 0, 0⟩,  -- ACT_WIN1
  ⟨0x114, 0, 0, 0, 0, 0, 0⟩,  -- RFM_CNT1
  ⟨0x118, 0, 0, 0, 0, 0, 0⟩,  -- REF_INS1
  ⟨0x11c, 0, 0, 0, 0, 0, 0⟩  -- CE_CNT1
  ]

/-- DRAMC: the registers of Table 12-10, part 3. -/
def regsDramc3 : List RegDef := [
  ⟨0x120, 0, 0, 0, 0, 0, 0⟩,  -- ACT_WIN2
  ⟨0x124, 0, 0, 0, 0, 0, 0⟩,  -- RFM_CNT2
  ⟨0x128, 0, 0, 0, 0, 0, 0⟩,  -- REF_INS2
  ⟨0x12c, 0, 0, 0, 0, 0, 0⟩,  -- CE_CNT2
  ⟨0x130, 0, 0, 0, 0, 0, 0⟩,  -- ACT_WIN3
  ⟨0x134, 0, 0, 0, 0, 0, 0⟩,  -- RFM_CNT3
  ⟨0x138, 0, 0, 0, 0, 0, 0⟩,  -- REF_INS3
  ⟨0x13c, 0, 0, 0, 0, 0, 0⟩  -- CE_CNT3
  ]

/-- DRAMC: the registers of Table 12-10. -/
def regsDramc : List RegDef := regsDramc0 ++ regsDramc1 ++ regsDramc2 ++ regsDramc3

/-- MMU: the registers of Table 05-9, part 0. -/
def regsMmu0 : List RegDef := [
  ⟨0, 0xff03, 0, 0, 0, 0, 0x7d01⟩,  -- CTRL
  ⟨0x4, 0, 0xff, 0, 0, 0, 0⟩,  -- STATUS
  ⟨0x8, 0, 0, 0, 0, 0, 0⟩,  -- FREE_PAGES
  ⟨0xc, 0, 0, 0, 0, 0, 0⟩,  -- MAPPED_PAGES
  ⟨0x10, 0, 0, 0, 0, 0, 0⟩,  -- PINNED_PAGES
  ⟨0x14, 0, 0, 0, 0, 0, 0⟩,  -- RETIRED_PAGES
  ⟨0x18, 0, 0, 0, 0, 0, 0⟩,  -- TLB_MISS
  ⟨0x1c, 0xffff, 0, 0, 0, 0, 0⟩,  -- WALK_MAX
  ⟨0x20, 0xffff, 0, 0, 0, 0, 0⟩,  -- DESC_SEL
  ⟨0x24, 0, 0, 0, 0, 0, 0⟩,  -- DESC_STATE
  ⟨0x28, 0, 0, 0, 0, 0, 0⟩,  -- DESC_FORMAT
  ⟨0x2c, 0, 0, 0, 0, 0, 0⟩,  -- DESC_LEN
  ⟨0x30, 0, 0, 0, 0, 0, 0⟩,  -- DESC_VBASE
  ⟨0x34, 0, 0, 0, 0, 0, 0⟩,  -- DESC_INFO
  ⟨0x38, 0x3fffff, 0, 0, 0, 0, 0⟩,  -- PTE_SEL
  ⟨0x3c, 0, 0, 0, 0, 0, 0⟩,  -- PTE_LO
  ⟨0x40, 0, 0, 0, 0, 0, 0⟩,  -- PTE_HI
  ⟨0x44, 0, 0, 0, 0, 0, 0x200⟩,  -- LC_STAT
  ⟨0x48, 0, 0, 0, 0, 0, 0⟩,  -- CMP_STAT
  ⟨0x4c, 0, 0, 0, 0, 0, 0⟩,  -- CMP_MOVED
  ⟨0x50, 0xffff, 0, 0, 0, 0, 0⟩,  -- WIN_SEG
  ⟨0x54, 0xfffffffc, 0, 0, 0, 0, 0⟩,  -- WIN_OFS
  ⟨0x58, 0xffffffff, 0, 0, 0, 0, 0⟩,  -- WIN_DATA
  ⟨0x5c, 0, 0, 0, 0, 0, 0⟩  -- LIFT_BUSY
  ]

/-- MMU: the registers of Table 05-9, part 1. -/
def regsMmu1 : List RegDef := [
  ⟨0x60, 0x7, 0, 0, 0, 0, 0⟩,  -- LIFT_SEL
  ⟨0x64, 0, 0, 0, 0, 0, 0⟩,  -- LIFT_STAT
  ⟨0x68, 0, 0, 0, 0, 0, 0⟩,  -- LIFT_FAULT
  ⟨0x6c, 0, 0, 0, 0, 0, 0⟩,  -- LIFT_DONE
  ⟨0x70, 0xffff, 0, 0, 0, 0, 0⟩,  -- RING_SEL
  ⟨0x74, 0, 0, 0, 0, 0, 0⟩,  -- RING_STAT
  ⟨0x78, 0, 0, 0, 0, 0, 0⟩,  -- RING_UFRAME_LO
  ⟨0x7c, 0, 0, 0, 0, 0, 0⟩  -- RING_UFRAME_HI
  ]

/-- MMU: the registers of Table 05-9. -/
def regsMmu : List RegDef := regsMmu0 ++ regsMmu1

/-- SEQ: the registers of Table 06-9. -/
def regsSeq : List RegDef := [
  ⟨0, 0xf133, 0, 0, 0, 0x3, 0x1⟩,  -- CTRL
  ⟨0x4, 0, 0, 0, 0, 0, 0⟩,  -- STATE
  ⟨0x8, 0, 0x7ff, 0, 0, 0, 0⟩,  -- STATUS
  ⟨0xc, 0xfffff, 0, 0, 0, 0, 0⟩,  -- WBASE
  ⟨0x10, 0xfffff, 0, 0, 0, 0, 0⟩,  -- WLIMIT
  ⟨0x14, 0xfffff, 0, 0, 0, 0, 0⟩,  -- START
  ⟨0x18, 0, 0, 0, 0, 0, 0⟩,  -- CUR
  ⟨0x1c, 0, 0, 0, 0, 0, 0⟩,  -- PASS
  ⟨0x20, 0, 0, 0, 0, 0, 0⟩,  -- FRAME_LO
  ⟨0x24, 0, 0, 0, 0, 0, 0⟩,  -- FRAME_HI
  ⟨0x28, 0, 0, 0, 0, 0, 0⟩,  -- PSTART_LO
  ⟨0x2c, 0, 0, 0, 0, 0, 0⟩,  -- PSTART_HI
  ⟨0x30, 0xffff, 0, 0, 0, 0, 0⟩,  -- IDLE
  ⟨0x34, 0x1f, 0, 0, 0, 0, 0⟩,  -- GATECFG
  ⟨0x38, 0xff, 0, 0, 0, 0, 0⟩,  -- EVDLY
  ⟨0x3c, 0, 0, 0, 0, 0, 0⟩,  -- LATE
  ⟨0x40, 0, 0, 0, 0, 0, 0⟩,  -- LOST
  ⟨0x44, 0, 0, 0, 0, 0, 0⟩,  -- RATE
  ⟨0x48, 0, 0, 0, 0, 0, 0⟩,  -- JUMPS
  ⟨0x4c, 0, 0, 0, 0, 0, 0⟩  -- GWAIT
  ]

/-- TRACK: the registers of Table 09-13, part 0. -/
def regsTrack0 : List RegDef := [
  ⟨0, 0x1, 0, 0, 0, 0, 0⟩,  -- CTRL
  ⟨0x4, 0, 0, 0, 0, 0, 0⟩,  -- STATE
  ⟨0x8, 0, 0x7fb, 0, 0, 0, 0⟩,  -- STATUS
  ⟨0xc, 0, 0, 0, 0, 0, 0⟩,  -- UNITS
  ⟨0x10, 0, 0, 0, 0, 0, 0⟩,  -- SEGS
  ⟨0x14, 0, 0, 0, 0, 0, 0⟩,  -- PRE
  ⟨0x18, 0, 0, 0, 0, 0, 0⟩,  -- POST
  ⟨0x1c, 0, 0, 0, 0, 0, 0⟩,  -- RECORDS
  ⟨0x20, 0, 0, 0, 0, 0, 0⟩,  -- RECDONE
  ⟨0x24, 0, 0, 0, 0, 0, 0⟩,  -- TRIGS
  ⟨0x28, 0, 0, 0, 0, 0, 0⟩,  -- TSKIP
  ⟨0x2c, 0, 0, 0, 0, 0, 0⟩,  -- TC0
  ⟨0x30, 0, 0, 0, 0, 0, 0⟩,  -- TC1
  ⟨0x34, 0, 0, 0, 0, 0, 0⟩,  -- TC2
  ⟨0x38, 0, 0, 0, 0, 0, 0⟩,  -- TC3
  ⟨0x3c, 0, 0, 0, 0, 0, 0⟩,  -- TT0
  ⟨0x40, 0, 0, 0, 0, 0, 0⟩,  -- TT1
  ⟨0x44, 0, 0, 0, 0, 0, 0⟩,  -- TICK_LO
  ⟨0x48, 0, 0, 0, 0, 0, 0⟩,  -- TICK_HI
  ⟨0x4c, 0, 0, 0, 0, 0, 0⟩,  -- TREC_TIME_LO
  ⟨0x50, 0, 0, 0, 0, 0, 0⟩,  -- TREC_TIME_HI
  ⟨0x54, 0, 0, 0, 0, 0, 0⟩,  -- TREC_FRAC
  ⟨0x58, 0, 0, 0, 0, 0, 0⟩,  -- TREC_FRAME_LO
  ⟨0x5c, 0, 0, 0, 0, 0, 0⟩  -- TREC_FRAME_HI
  ]

/-- TRACK: the registers of Table 09-13, part 1. -/
def regsTrack1 : List RegDef := [
  ⟨0x60, 0, 0, 0, 0, 0, 0⟩,  -- TREC_FOFS
  ⟨0x64, 0, 0, 0, 0, 0, 0⟩,  -- TREC_PATH
  ⟨0x68, 0, 0, 0, 0, 0, 0⟩,  -- TREC_MASK
  ⟨0x6c, 0, 0, 0, 0, 0, 0⟩,  -- RED_WPTR
  ⟨0x70, 0, 0, 0, 0, 0, 0⟩,  -- RED_WRAPS
  ⟨0x74, 0, 0, 0, 0, 0, 0⟩,  -- UP_WPTR
  ⟨0x78, 0xffffffff, 0, 0, 0, 0, 0⟩,  -- UP_RPTR
  ⟨0x7c, 0, 0, 0, 0, 0, 0⟩  -- CFG
  ]

/-- TRACK: the registers of Table 09-13. -/
def regsTrack : List RegDef := regsTrack0 ++ regsTrack1

/-- P: the registers of R58, Table 02-10. -/
def regsP : List RegDef := [
  ⟨0, 0xf00f318, 0, 0x8, 0x10, 0x10, 0x3010⟩,  -- CTRL
  ⟨0x4, 0xf, 0, 0xf, 0, 0xf, 0⟩,  -- RANGE
  ⟨0x8, 0xfffffff, 0, 0xfffffff, 0, 0, 0⟩,  -- OFFSET
  ⟨0xc, 0, 0, 0, 0, 0, 0⟩,  -- STATE
  ⟨0x10, 0, 0x1ff, 0, 0, 0, 0⟩,  -- STATUS
  ⟨0x14, 0xffff, 0, 0, 0xffff, 0xffff, 0⟩,  -- SLEW
  ⟨0x18, 0, 0, 0, 0, 0, 0⟩,  -- LAT_FRAMES
  ⟨0x1c, 0, 0, 0, 0, 0, 0⟩,  -- LAT_NS
  ⟨0x20, 0xfffffff, 0, 0xfffffff, 0, 0, 0⟩,  -- SYN
  ⟨0x24, 0xffffffff, 0, 0xffffffff, 0, 0, 0⟩,  -- SYN_FREQ_LO
  ⟨0x28, 0xffff, 0, 0xffff, 0, 0, 0⟩,  -- SYN_FREQ_HI
  ⟨0x2c, 0xffffffff, 0, 0xffffffff, 0, 0, 0⟩,  -- SYN_PHASE
  ⟨0x30, 0x37f3, 0, 0x37f3, 0, 0, 0⟩,  -- BRIDGE
  ⟨0x34, 0, 0, 0, 0, 0, 0x80000000⟩,  -- EXC
  ⟨0x38, 0x3f, 0, 0, 0x3f, 0, 0⟩,  -- SKEW
  ⟨0x3c, 0, 0, 0, 0, 0, 0⟩  -- MONITOR
  ]

/-- D: the registers of Tables 02-10, 02-26 to 02-29. -/
def regsD : List RegDef := [
  ⟨0, 0xf00f318, 0, 0x8, 0x10, 0x10, 0x3010⟩,  -- CTRL
  ⟨0x4, 0xf, 0, 0xf, 0, 0xf, 0⟩,  -- RANGE
  ⟨0x8, 0xfffffff, 0, 0xfffffff, 0, 0, 0⟩,  -- OFFSET
  ⟨0xc, 0, 0, 0, 0, 0, 0⟩,  -- STATE
  ⟨0x10, 0, 0x3ef, 0, 0, 0, 0⟩,  -- STATUS
  ⟨0x14, 0xffff, 0, 0, 0xffff, 0xffff, 0⟩,  -- SLEW
  ⟨0x18, 0, 0, 0, 0, 0, 0⟩,  -- LAT_FRAMES
  ⟨0x1c, 0, 0, 0, 0, 0, 0⟩,  -- LAT_NS
  ⟨0x20, 0xfffffff, 0, 0xfffffff, 0, 0, 0⟩,  -- SYN
  ⟨0x24, 0xffffffff, 0, 0xffffffff, 0, 0, 0⟩,  -- SYN_FREQ_LO
  ⟨0x28, 0xffff, 0, 0xffff, 0, 0, 0⟩,  -- SYN_FREQ_HI
  ⟨0x2c, 0xffffffff, 0, 0xffffffff, 0, 0, 0⟩,  -- SYN_PHASE
  ⟨0x30, 0x7, 0, 0, 0, 0, 0⟩,  -- LOADCFG
  ⟨0x34, 0, 0, 0, 0, 0, 0⟩,  -- LOADMON
  ⟨0x38, 0x3f, 0, 0, 0x3f, 0, 0⟩,  -- SKEW
  ⟨0x3c, 0, 0, 0, 0, 0, 0⟩,  -- MONITOR
  ⟨0x40, 0xffff, 0, 0, 0xffff, 0xffff, 0⟩,  -- JERK
  ⟨0x44, 0x1f, 0, 0, 0x1f, 0x1f, 0x19⟩  -- ILIM
  ]

/-- A: the registers of Table 09-9. -/
def regsA : List RegDef := [
  ⟨0, 0x4f3d, 0, 0, 0x4000, 0x4000, 0x400c⟩,  -- CTRL
  ⟨0x4, 0, 0x3a, 0, 0, 0, 0⟩,  -- STATUS
  ⟨0x8, 0, 0, 0, 0, 0, 0⟩,  -- LAST
  ⟨0xc, 0, 0, 0, 0, 0, 0⟩,  -- LTICK
  ⟨0x10, 0xe0ffffff, 0, 0, 0, 0, 0x7f⟩,  -- RED0
  ⟨0x14, 0xe0ffffff, 0, 0, 0, 0, 0x7f⟩,  -- RED1
  ⟨0x18, 0xe0ffffff, 0, 0, 0, 0, 0x7f⟩,  -- RED2
  ⟨0x1c, 0xe0ffffff, 0, 0, 0, 0, 0x7f⟩,  -- RED3
  ⟨0x20, 0xffffff00, 0, 0, 0, 0, 0⟩,  -- THRESH
  ⟨0x24, 0, 0, 0, 0, 0, 0⟩,  -- DELAY
  ⟨0x28, 0, 0, 0, 0, 0, 0⟩,  -- OVCOUNT
  ⟨0x2c, 0, 0, 0, 0, 0, 0⟩  -- CMON
  ]

/-- LC: the registers of Table 08-5. -/
def regsLc : List RegDef := [
  ⟨0, 0xf000007, 0, 0x1, 0, 0, 0x4⟩,  -- CTRL
  ⟨0x4, 0xffffffff, 0, 0xffffffff, 0, 0, 0⟩,  -- LCFG
  ⟨0x8, 0, 0, 0, 0, 0, 0⟩,  -- LEVELS
  ⟨0xc, 0, 0, 0, 0, 0, 0⟩,  -- STATE
  ⟨0x10, 0, 0x1f, 0, 0, 0, 0⟩,  -- STATUS
  ⟨0x14, 0x3f3f3f3f, 0, 0, 0x3f3f3f3f, 0, 0⟩,  -- SKEW_LO
  ⟨0x18, 0x3f3f3f3f, 0, 0, 0x3f3f3f3f, 0, 0⟩,  -- SKEW_HI
  ⟨0x1c, 0xffffff, 0, 0, 0, 0, 0⟩,  -- INCFG
  ⟨0x20, 0, 0, 0, 0, 0, 0⟩,  -- EYE01
  ⟨0x24, 0, 0, 0, 0, 0, 0⟩,  -- EYE23
  ⟨0x28, 0, 0, 0, 0, 0, 0⟩,  -- EYE45
  ⟨0x2c, 0, 0, 0, 0, 0, 0⟩  -- EYE67
  ]

/-- BRG: the registers of R75, Table 03-5. -/
def regsBrg : List RegDef := [
  ⟨0, 0xffff0003, 0, 0xffff0003, 0, 0, 0xbb800000⟩,  -- XCFG
  ⟨0x4, 0, 0, 0, 0, 0, 0⟩,  -- XSTAT
  ⟨0x8, 0, 0, 0, 0, 0, 0⟩,  -- XDELAY
  ⟨0xc, 0, 0, 0, 0, 0, 0⟩  -- XPEAK
  ]

/-- STR: the registers of R94, Table 04-6. -/
def regsStr : List RegDef := [
  ⟨0, 0, 0, 0, 0, 0, 0⟩,  -- SCFG
  ⟨0x4, 0, 0, 0, 0, 0, 0⟩,  -- RESTV
  ⟨0x8, 0, 0, 0, 0, 0, 0⟩,  -- FAULTV
  ⟨0xc, 0, 0, 0, 0, 0, 0⟩,  -- RCHGV
  ⟨0x10, 0, 0, 0, 0, 0, 0⟩,  -- RAMP
  ⟨0x14, 0, 0, 0, 0, 0, 0⟩,  -- JRAMP
  ⟨0x1c, 0, 0, 0, 0, 0, 0⟩,  -- RCRC
  ⟨0x20, 0, 0x13, 0, 0, 0, 0⟩  -- STEVT
  ]

/-- SYN: the registers of R164, Table 07-6. -/
def regsSyn : List RegDef := [
  ⟨0, 0, 0x8, 0, 0, 0, 0⟩,  -- TBL_STAT
  ⟨0x4, 0, 0, 0, 0, 0, 0⟩,  -- TBL_CRC_A
  ⟨0x8, 0, 0, 0, 0, 0, 0⟩,  -- TBL_CRC_B
  ⟨0x100, 0, 0, 0, 0, 0, 0⟩,  -- PHASE_LO
  ⟨0x104, 0, 0, 0, 0, 0, 0⟩,  -- PHASE_HI
  ⟨0x108, 0, 0x1, 0, 0, 0, 0⟩,  -- CVSTAT
  ⟨0x10c, 0, 0, 0, 0, 0, 0⟩  -- CVLAST
  ]

end Sys2Proof.Machine
end

