-- ==== Sys2Proof/Machine/RegNames.lean ====
section
/-! DEFINITION. The names of the registers (`R`) and of their fields (`F`), as the spec's register maps and
field tables give them. Of an array of registers only the first is named; another is so many bytes further
on. In a block with instances the address is the offset in the instance (R327). -/

namespace Sys2Proof.Machine

/-! GLOBAL (R328) -/
abbrev R.GLOBAL_ID : Nat := 0
abbrev F.GLOBAL_ID_FAMILY : Fld := ⟨0, 31, 16⟩
abbrev F.GLOBAL_ID_PART : Fld := ⟨0, 15, 0⟩
abbrev R.GLOBAL_STEPPING : Nat := 0x4
abbrev F.GLOBAL_STEPPING_STEP : Fld := ⟨0x4, 7, 0⟩
abbrev R.GLOBAL_SERIAL_LO : Nat := 0x8
abbrev F.GLOBAL_SERIAL_LO_SERIAL : Fld := ⟨0x8, 31, 0⟩
abbrev R.GLOBAL_SERIAL_HI : Nat := 0xc
abbrev F.GLOBAL_SERIAL_HI_SERIAL : Fld := ⟨0xc, 31, 0⟩
abbrev R.GLOBAL_CTRL : Nat := 0x10
abbrev F.GLOBAL_CTRL_MASK : Fld := ⟨0x10, 31, 16⟩
abbrev F.GLOBAL_CTRL_RSVD_ERR : Fld := ⟨0x10, 2, 2⟩
abbrev F.GLOBAL_CTRL_RDACT_S : Fld := ⟨0x10, 1, 1⟩
abbrev F.GLOBAL_CTRL_RDACT_P : Fld := ⟨0x10, 0, 0⟩
abbrev R.GLOBAL_STATUS : Nat := 0x14
abbrev F.GLOBAL_STATUS_LINK_DROP : Fld := ⟨0x14, 6, 6⟩
abbrev F.GLOBAL_STATUS_IND_ERR : Fld := ⟨0x14, 5, 5⟩
abbrev F.GLOBAL_STATUS_HI_UNLATCHED : Fld := ⟨0x14, 4, 4⟩
abbrev F.GLOBAL_STATUS_RSVD_ACCESS : Fld := ⟨0x14, 3, 3⟩
abbrev F.GLOBAL_STATUS_TMR_MISMATCH : Fld := ⟨0x14, 2, 2⟩
abbrev F.GLOBAL_STATUS_LOCKED_WR : Fld := ⟨0x14, 1, 1⟩
abbrev F.GLOBAL_STATUS_KEY_FAIL : Fld := ⟨0x14, 0, 0⟩
abbrev R.GLOBAL_RESET_CAUSE : Nat := 0x18
abbrev F.GLOBAL_RESET_CAUSE_WAKE : Fld := ⟨0x18, 3, 3⟩
abbrev F.GLOBAL_RESET_CAUSE_WDOG : Fld := ⟨0x18, 2, 2⟩
abbrev F.GLOBAL_RESET_CAUSE_RSTN : Fld := ⟨0x18, 1, 1⟩
abbrev F.GLOBAL_RESET_CAUSE_POR : Fld := ⟨0x18, 0, 0⟩
abbrev R.GLOBAL_PINS : Nat := 0x1c
abbrev F.GLOBAL_PINS_LOCK_B : Fld := ⟨0x1c, 3, 3⟩
abbrev F.GLOBAL_PINS_LOCK_A : Fld := ⟨0x1c, 2, 2⟩
abbrev F.GLOBAL_PINS_FAULT : Fld := ⟨0x1c, 1, 1⟩
abbrev F.GLOBAL_PINS_SAFE : Fld := ⟨0x1c, 0, 0⟩
abbrev R.GLOBAL_MODE : Nat := 0x20
abbrev F.GLOBAL_MODE_RGN_SAFE : Fld := ⟨0x20, 15, 12⟩
abbrev F.GLOBAL_MODE_CHANGING : Fld := ⟨0x20, 8, 8⟩
abbrev F.GLOBAL_MODE_TGT : Fld := ⟨0x20, 7, 4⟩
abbrev F.GLOBAL_MODE_CUR : Fld := ⟨0x20, 3, 0⟩
abbrev R.GLOBAL_MODE_SKEW : Nat := 0x24
abbrev F.GLOBAL_MODE_SKEW_NS : Fld := ⟨0x24, 31, 0⟩
abbrev R.GLOBAL_KEY : Nat := 0x28
abbrev F.GLOBAL_KEY_KEY : Fld := ⟨0x28, 31, 0⟩
abbrev R.GLOBAL_KEYSTAT : Nat := 0x2c
abbrev F.GLOBAL_KEYSTAT_UNL_S : Fld := ⟨0x2c, 1, 1⟩
abbrev F.GLOBAL_KEYSTAT_UNL_P : Fld := ⟨0x2c, 0, 0⟩
abbrev R.GLOBAL_KEYFAIL : Nat := 0x30
abbrev F.GLOBAL_KEYFAIL_COUNT : Fld := ⟨0x30, 31, 0⟩
abbrev R.GLOBAL_LOCKED_WR : Nat := 0x34
abbrev F.GLOBAL_LOCKED_WR_COUNT : Fld := ⟨0x34, 31, 16⟩
abbrev F.GLOBAL_LOCKED_WR_WADDR : Fld := ⟨0x34, 15, 0⟩
abbrev R.GLOBAL_UPDATE : Nat := 0x38
abbrev F.GLOBAL_UPDATE_UG : Fld := ⟨0x38, 15, 0⟩
abbrev R.GLOBAL_UG_PEND : Nat := 0x3c
abbrev F.GLOBAL_UG_PEND_PEND : Fld := ⟨0x3c, 15, 0⟩
abbrev R.GLOBAL_UG_LAST : Nat := 0x40
abbrev F.GLOBAL_UG_LAST_VALID : Fld := ⟨0x40, 31, 31⟩
abbrev F.GLOBAL_UG_LAST_SRC : Fld := ⟨0x40, 5, 4⟩
abbrev F.GLOBAL_UG_LAST_UG : Fld := ⟨0x40, 3, 0⟩
abbrev R.GLOBAL_SHADOW_STAT : Nat := 0x44
abbrev F.GLOBAL_SHADOW_STAT_TAG_S : Fld := ⟨0x44, 31, 16⟩
abbrev F.GLOBAL_SHADOW_STAT_TAG_P : Fld := ⟨0x44, 15, 0⟩
abbrev R.GLOBAL_IND_ADDR : Nat := 0x48
abbrev F.GLOBAL_IND_ADDR_TGT : Fld := ⟨0x48, 31, 28⟩
abbrev F.GLOBAL_IND_ADDR_ADDR : Fld := ⟨0x48, 27, 2⟩
abbrev F.GLOBAL_IND_ADDR_INC : Fld := ⟨0x48, 1, 0⟩
abbrev R.GLOBAL_IND_DATA : Nat := 0x4c
abbrev F.GLOBAL_IND_DATA_DATA : Fld := ⟨0x4c, 31, 0⟩
abbrev R.GLOBAL_IND_STAT : Nat := 0x50
abbrev F.GLOBAL_IND_STAT_REASON : Fld := ⟨0x50, 7, 4⟩
abbrev F.GLOBAL_IND_STAT_ERR : Fld := ⟨0x50, 1, 1⟩
abbrev F.GLOBAL_IND_STAT_BUSY : Fld := ⟨0x50, 0, 0⟩
abbrev R.GLOBAL_IND_ADDR_S : Nat := 0x54
abbrev F.GLOBAL_IND_ADDR_S_TGT : Fld := ⟨0x54, 31, 28⟩
abbrev F.GLOBAL_IND_ADDR_S_ADDR : Fld := ⟨0x54, 27, 2⟩
abbrev F.GLOBAL_IND_ADDR_S_INC : Fld := ⟨0x54, 1, 0⟩
abbrev R.GLOBAL_IND_DATA_S : Nat := 0x58
abbrev F.GLOBAL_IND_DATA_S_DATA : Fld := ⟨0x58, 31, 0⟩
abbrev R.GLOBAL_IND_STAT_S : Nat := 0x5c
abbrev F.GLOBAL_IND_STAT_S_REASON : Fld := ⟨0x5c, 7, 4⟩
abbrev F.GLOBAL_IND_STAT_S_ERR : Fld := ⟨0x5c, 1, 1⟩
abbrev F.GLOBAL_IND_STAT_S_BUSY : Fld := ⟨0x5c, 0, 0⟩
abbrev R.GLOBAL_TMR_SCRUB : Nat := 0x60
abbrev F.GLOBAL_TMR_SCRUB_PASSES : Fld := ⟨0x60, 31, 8⟩
abbrev F.GLOBAL_TMR_SCRUB_EN : Fld := ⟨0x60, 0, 0⟩
abbrev R.GLOBAL_TMR_CORR : Nat := 0x64
abbrev F.GLOBAL_TMR_CORR_COUNT : Fld := ⟨0x64, 31, 0⟩
abbrev R.GLOBAL_TMR_LAST : Nat := 0x68
abbrev F.GLOBAL_TMR_LAST_COPY : Fld := ⟨0x68, 31, 30⟩
abbrev F.GLOBAL_TMR_LAST_LOC : Fld := ⟨0x68, 29, 28⟩
abbrev F.GLOBAL_TMR_LAST_SHADOW : Fld := ⟨0x68, 16, 16⟩
abbrev F.GLOBAL_TMR_LAST_WADDR : Fld := ⟨0x68, 15, 0⟩
abbrev R.GLOBAL_TMR_SEL : Nat := 0x6c
abbrev F.GLOBAL_TMR_SEL_SHADOW : Fld := ⟨0x6c, 16, 16⟩
abbrev F.GLOBAL_TMR_SEL_WADDR : Fld := ⟨0x6c, 15, 0⟩
abbrev R.GLOBAL_TMR_COPY0 : Nat := 0x70
abbrev F.GLOBAL_TMR_COPY0_VAL : Fld := ⟨0x70, 31, 0⟩
abbrev R.GLOBAL_TMR_INJ : Nat := 0x7c
abbrev F.GLOBAL_TMR_INJ_BIT : Fld := ⟨0x7c, 12, 8⟩
abbrev F.GLOBAL_TMR_INJ_COPY : Fld := ⟨0x7c, 5, 4⟩
abbrev F.GLOBAL_TMR_INJ_GO : Fld := ⟨0x7c, 0, 0⟩
abbrev R.GLOBAL_RSVD_LAST : Nat := 0x80
abbrev F.GLOBAL_RSVD_LAST_VALID : Fld := ⟨0x80, 31, 31⟩
abbrev F.GLOBAL_RSVD_LAST_MASTER : Fld := ⟨0x80, 25, 24⟩
abbrev F.GLOBAL_RSVD_LAST_WADDR : Fld := ⟨0x80, 21, 0⟩
abbrev R.GLOBAL_ACC_PCIE : Nat := 0x84
abbrev F.GLOBAL_ACC_PCIE_COUNT : Fld := ⟨0x84, 31, 0⟩
abbrev R.GLOBAL_ACC_SPI : Nat := 0x88
abbrev F.GLOBAL_ACC_SPI_COUNT : Fld := ⟨0x88, 31, 0⟩
abbrev R.GLOBAL_UG_MERGED : Nat := 0x8c
abbrev F.GLOBAL_UG_MERGED_COUNT : Fld := ⟨0x8c, 31, 0⟩
abbrev R.GLOBAL_SCRATCH0 : Nat := 0x90
abbrev F.GLOBAL_SCRATCH0_DATA : Fld := ⟨0x90, 31, 0⟩
abbrev R.GLOBAL_KEYHASH0 : Nat := 0xa0
abbrev F.GLOBAL_KEYHASH0_HASH : Fld := ⟨0xa0, 31, 0⟩
abbrev R.GLOBAL_UG_COUNT0 : Nat := 0xc0
abbrev F.GLOBAL_UG_COUNT0_COUNT : Fld := ⟨0xc0, 31, 0⟩
/-! HOSTCMD (R309, Table 13-7) -/
abbrev R.HOSTCMD_CTRL : Nat := 0x1000
abbrev F.HOSTCMD_CTRL_EN : Fld := ⟨0x1000, 0, 0⟩
abbrev R.HOSTCMD_STATUS : Nat := 0x1004
abbrev F.HOSTCMD_STATUS_JRNL_REPLAY : Fld := ⟨0x1004, 8, 8⟩
abbrev F.HOSTCMD_STATUS_MS_UE : Fld := ⟨0x1004, 7, 7⟩
abbrev F.HOSTCMD_STATUS_STEP_WDOG : Fld := ⟨0x1004, 6, 6⟩
abbrev F.HOSTCMD_STATUS_CPL_HELD : Fld := ⟨0x1004, 5, 5⟩
abbrev F.HOSTCMD_STATUS_RING_ERR : Fld := ⟨0x1004, 3, 0⟩
abbrev R.HOSTCMD_STATE : Nat := 0x1008
abbrev F.HOSTCMD_STATE_CPL_HELD : Fld := ⟨0x1008, 23, 16⟩
abbrev F.HOSTCMD_STATE_WAITING : Fld := ⟨0x1008, 15, 8⟩
abbrev F.HOSTCMD_STATE_INPROG : Fld := ⟨0x1008, 7, 4⟩
abbrev F.HOSTCMD_STATE_UE_STATE : Fld := ⟨0x1008, 2, 0⟩
abbrev R.HOSTCMD_ARB : Nat := 0x100c
abbrev F.HOSTCMD_ARB_BG_MIN : Fld := ⟨0x100c, 31, 16⟩
abbrev F.HOSTCMD_ARB_W1 : Fld := ⟨0x100c, 7, 4⟩
abbrev F.HOSTCMD_ARB_W0 : Fld := ⟨0x100c, 3, 0⟩
abbrev R.HOSTCMD_IRQ_CFG : Nat := 0x1010
abbrev F.HOSTCMD_IRQ_CFG_COAL_US : Fld := ⟨0x1010, 31, 24⟩
abbrev F.HOSTCMD_IRQ_CFG_COAL_CNT : Fld := ⟨0x1010, 23, 16⟩
abbrev F.HOSTCMD_IRQ_CFG_ERR_VEC : Fld := ⟨0x1010, 12, 8⟩
abbrev F.HOSTCMD_IRQ_CFG_CPL_VEC : Fld := ⟨0x1010, 4, 0⟩
abbrev R.HOSTCMD_IRQ_STAT : Nat := 0x1014
abbrev F.HOSTCMD_IRQ_STAT_ERR_PEND : Fld := ⟨0x1014, 1, 1⟩
abbrev F.HOSTCMD_IRQ_STAT_CPL_PEND : Fld := ⟨0x1014, 0, 0⟩
abbrev R.HOSTCMD_CUR : Nat := 0x1018
abbrev F.HOSTCMD_CUR_VALID : Fld := ⟨0x1018, 31, 31⟩
abbrev F.HOSTCMD_CUR_OPCODE : Fld := ⟨0x1018, 23, 16⟩
abbrev F.HOSTCMD_CUR_TAG : Fld := ⟨0x1018, 15, 8⟩
abbrev F.HOSTCMD_CUR_RING : Fld := ⟨0x1018, 1, 0⟩
abbrev R.HOSTCMD_CUR_STEPS : Nat := 0x101c
abbrev F.HOSTCMD_CUR_STEPS_COUNT : Fld := ⟨0x101c, 31, 0⟩
abbrev R.HOSTCMD_SQ0_BASE_LO : Nat := 0x1040
abbrev F.HOSTCMD_SQ0_BASE_LO_ADDR : Fld := ⟨0x1040, 31, 0⟩
abbrev R.HOSTCMD_SQ0_BASE_HI : Nat := 0x1044
abbrev F.HOSTCMD_SQ0_BASE_HI_ADDR : Fld := ⟨0x1044, 31, 0⟩
abbrev R.HOSTCMD_SQ0_CFG : Nat := 0x1048
abbrev F.HOSTCMD_SQ0_CFG_LOG2 : Fld := ⟨0x1048, 12, 8⟩
abbrev F.HOSTCMD_SQ0_CFG_LOC : Fld := ⟨0x1048, 1, 1⟩
abbrev F.HOSTCMD_SQ0_CFG_EN : Fld := ⟨0x1048, 0, 0⟩
abbrev R.HOSTCMD_SQ0_HEAD : Nat := 0x104c
abbrev F.HOSTCMD_SQ0_HEAD_IDX : Fld := ⟨0x104c, 15, 0⟩
abbrev R.HOSTCMD_SQ0_TAIL : Nat := 0x1050
abbrev F.HOSTCMD_SQ0_TAIL_IDX : Fld := ⟨0x1050, 15, 0⟩
abbrev R.HOSTCMD_CQ_BASE_LO : Nat := 0x10c0
abbrev F.HOSTCMD_CQ_BASE_LO_ADDR : Fld := ⟨0x10c0, 31, 0⟩
abbrev R.HOSTCMD_CQ_BASE_HI : Nat := 0x10c4
abbrev F.HOSTCMD_CQ_BASE_HI_ADDR : Fld := ⟨0x10c4, 31, 0⟩
abbrev R.HOSTCMD_CQ_CFG : Nat := 0x10c8
abbrev F.HOSTCMD_CQ_CFG_LOG2 : Fld := ⟨0x10c8, 12, 8⟩
abbrev F.HOSTCMD_CQ_CFG_LOC : Fld := ⟨0x10c8, 1, 1⟩
abbrev F.HOSTCMD_CQ_CFG_EN : Fld := ⟨0x10c8, 0, 0⟩
abbrev R.HOSTCMD_CQ_HEAD : Nat := 0x10cc
abbrev F.HOSTCMD_CQ_HEAD_IDX : Fld := ⟨0x10cc, 15, 0⟩
abbrev R.HOSTCMD_CQ_TAIL : Nat := 0x10d0
abbrev F.HOSTCMD_CQ_TAIL_IDX : Fld := ⟨0x10d0, 15, 0⟩
abbrev R.HOSTCMD_CMD_COUNT : Nat := 0x10e0
abbrev F.HOSTCMD_CMD_COUNT_COUNT : Fld := ⟨0x10e0, 31, 0⟩
abbrev R.HOSTCMD_ERR_COUNT : Nat := 0x10e4
abbrev F.HOSTCMD_ERR_COUNT_COUNT : Fld := ⟨0x10e4, 31, 0⟩
abbrev R.HOSTCMD_LAST_ERR : Nat := 0x10e8
abbrev F.HOSTCMD_LAST_ERR_OPCODE : Fld := ⟨0x10e8, 31, 24⟩
abbrev F.HOSTCMD_LAST_ERR_RING : Fld := ⟨0x10e8, 17, 16⟩
abbrev F.HOSTCMD_LAST_ERR_TAG : Fld := ⟨0x10e8, 15, 8⟩
abbrev F.HOSTCMD_LAST_ERR_STATUS : Fld := ⟨0x10e8, 7, 0⟩
abbrev R.HOSTCMD_PREEMPT : Nat := 0x10ec
abbrev F.HOSTCMD_PREEMPT_COUNT : Fld := ⟨0x10ec, 31, 0⟩
abbrev R.HOSTCMD_STEP_MAX : Nat := 0x10f0
abbrev F.HOSTCMD_STEP_MAX_CYCLES : Fld := ⟨0x10f0, 15, 0⟩
abbrev R.HOSTCMD_UE_VER : Nat := 0x10f4
abbrev F.HOSTCMD_UE_VER_VERSION : Fld := ⟨0x10f4, 31, 0⟩
abbrev R.HOSTCMD_UE_SLOT : Nat := 0x10f8
abbrev F.HOSTCMD_UE_SLOT_MINSVN : Fld := ⟨0x10f8, 12, 8⟩
abbrev F.HOSTCMD_UE_SLOT_SVN : Fld := ⟨0x10f8, 7, 3⟩
abbrev F.HOSTCMD_UE_SLOT_FELL_BACK : Fld := ⟨0x10f8, 2, 2⟩
abbrev F.HOSTCMD_UE_SLOT_PREF : Fld := ⟨0x10f8, 1, 1⟩
abbrev F.HOSTCMD_UE_SLOT_ACTIVE : Fld := ⟨0x10f8, 0, 0⟩
abbrev R.HOSTCMD_UE_PC : Nat := 0x10fc
abbrev F.HOSTCMD_UE_PC_MADDR : Fld := ⟨0x10fc, 13, 0⟩
abbrev R.HOSTCMD_UCS_CE : Nat := 0x1100
abbrev F.HOSTCMD_UCS_CE_COUNT : Fld := ⟨0x1100, 31, 0⟩
abbrev R.HOSTCMD_NCS_CE : Nat := 0x1104
abbrev F.HOSTCMD_NCS_CE_COUNT : Fld := ⟨0x1104, 31, 0⟩
abbrev R.HOSTCMD_MS_SCRUB : Nat := 0x1108
abbrev F.HOSTCMD_MS_SCRUB_PASSES : Fld := ⟨0x1108, 31, 0⟩
abbrev R.HOSTCMD_JRNL : Nat := 0x110c
abbrev F.HOSTCMD_JRNL_REPLAYS : Fld := ⟨0x110c, 31, 16⟩
abbrev F.HOSTCMD_JRNL_OPCODE : Fld := ⟨0x110c, 7, 0⟩
abbrev R.HOSTCMD_ABORTS : Nat := 0x1110
abbrev F.HOSTCMD_ABORTS_COUNT : Fld := ⟨0x1110, 31, 0⟩
abbrev R.HOSTCMD_WDOG : Nat := 0x1114
abbrev F.HOSTCMD_WDOG_COUNT : Fld := ⟨0x1114, 31, 0⟩
abbrev R.HOSTCMD_LAT_URG : Nat := 0x1118
abbrev F.HOSTCMD_LAT_URG_NS : Fld := ⟨0x1118, 15, 0⟩
/-! EVENT (Table 10-7) -/
abbrev R.EVENT_CTRL : Nat := 0x2000
abbrev F.EVENT_CTRL_RT_CLR : Fld := ⟨0x2000, 1, 1⟩
abbrev F.EVENT_CTRL_RT_GO : Fld := ⟨0x2000, 0, 0⟩
abbrev R.EVENT_STATUS : Nat := 0x2004
abbrev F.EVENT_STATUS_RT_REFUSED : Fld := ⟨0x2004, 3, 3⟩
abbrev F.EVENT_STATUS_OVERRUN : Fld := ⟨0x2004, 2, 2⟩
abbrev F.EVENT_STATUS_COINCIDENT : Fld := ⟨0x2004, 1, 1⟩
abbrev F.EVENT_STATUS_EVR_LOOP : Fld := ⟨0x2004, 0, 0⟩
abbrev R.EVENT_LOOP : Nat := 0x2008
abbrev F.EVENT_LOOP_SINK : Fld := ⟨0x2008, 23, 16⟩
abbrev F.EVENT_LOOP_SRC : Fld := ⟨0x2008, 7, 0⟩
abbrev R.EVENT_SWEV : Nat := 0x200c
abbrev F.EVENT_SWEV_FIRE : Fld := ⟨0x200c, 7, 0⟩
abbrev R.EVENT_RT_SEL : Nat := 0x2010
abbrev F.EVENT_RT_SEL_SINK : Fld := ⟨0x2010, 7, 0⟩
abbrev R.EVENT_RT_SRC : Nat := 0x2014
abbrev F.EVENT_RT_SRC_SRC0 : Fld := ⟨0x2014, 7, 0⟩
abbrev F.EVENT_RT_SRC_SRC1 : Fld := ⟨0x2014, 15, 8⟩
abbrev F.EVENT_RT_SRC_SRC2 : Fld := ⟨0x2014, 23, 16⟩
abbrev F.EVENT_RT_SRC_SRC3 : Fld := ⟨0x2014, 31, 24⟩
abbrev R.EVENT_RT_CFG : Nat := 0x2018
abbrev F.EVENT_RT_CFG_CNT : Fld := ⟨0x2018, 11, 11⟩
abbrev F.EVENT_RT_CFG_GINV : Fld := ⟨0x2018, 10, 10⟩
abbrev F.EVENT_RT_CFG_GEN : Fld := ⟨0x2018, 9, 9⟩
abbrev F.EVENT_RT_CFG_GLVL : Fld := ⟨0x2018, 8, 4⟩
abbrev F.EVENT_RT_CFG_EN : Fld := ⟨0x2018, 3, 0⟩
abbrev R.EVENT_RT_COUNT : Nat := 0x201c
abbrev F.EVENT_RT_COUNT_BLOCKED : Fld := ⟨0x201c, 31, 16⟩
abbrev F.EVENT_RT_COUNT_DELIVERED : Fld := ⟨0x201c, 15, 0⟩
abbrev R.EVENT_COINC0 : Nat := 0x2020
abbrev F.EVENT_COINC0_SINK : Fld := ⟨0x2020, 31, 0⟩
abbrev R.EVENT_OVR : Nat := 0x2034
abbrev F.EVENT_OVR_TMR : Fld := ⟨0x2034, 23, 16⟩
abbrev F.EVENT_OVR_EVOUT : Fld := ⟨0x2034, 15, 8⟩
abbrev F.EVENT_OVR_GEV : Fld := ⟨0x2034, 7, 0⟩
abbrev R.EVENT_GLSEL : Nat := 0x2038
abbrev F.EVENT_GLSEL_SEL0 : Fld := ⟨0x2038, 4, 0⟩
abbrev F.EVENT_GLSEL_SEL1 : Fld := ⟨0x2038, 12, 8⟩
abbrev F.EVENT_GLSEL_SEL2 : Fld := ⟨0x2038, 20, 16⟩
abbrev F.EVENT_GLSEL_SEL3 : Fld := ⟨0x2038, 28, 24⟩
abbrev R.EVENT_GLEVEL : Nat := 0x203c
abbrev F.EVENT_GLEVEL_LVL : Fld := ⟨0x203c, 31, 0⟩
abbrev R.EVENT_EVINCFG : Nat := 0x2040
abbrev F.EVENT_EVINCFG_FILT : Fld := ⟨0x2040, 23, 16⟩
abbrev F.EVENT_EVINCFG_EDGE0 : Fld := ⟨0x2040, 1, 0⟩
abbrev F.EVENT_EVINCFG_EDGE1 : Fld := ⟨0x2040, 3, 2⟩
abbrev F.EVENT_EVINCFG_EDGE2 : Fld := ⟨0x2040, 5, 4⟩
abbrev F.EVENT_EVINCFG_EDGE3 : Fld := ⟨0x2040, 7, 6⟩
abbrev F.EVENT_EVINCFG_EDGE4 : Fld := ⟨0x2040, 9, 8⟩
abbrev F.EVENT_EVINCFG_EDGE5 : Fld := ⟨0x2040, 11, 10⟩
abbrev F.EVENT_EVINCFG_EDGE6 : Fld := ⟨0x2040, 13, 12⟩
abbrev F.EVENT_EVINCFG_EDGE7 : Fld := ⟨0x2040, 15, 14⟩
abbrev R.EVENT_SRCSEL : Nat := 0x2044
abbrev F.EVENT_SRCSEL_SRC : Fld := ⟨0x2044, 7, 0⟩
abbrev R.EVENT_SRCCOUNT : Nat := 0x2048
abbrev F.EVENT_SRCCOUNT_COUNT : Fld := ⟨0x2048, 31, 0⟩
abbrev R.EVENT_HOPDROP : Nat := 0x204c
abbrev F.EVENT_HOPDROP_COUNT : Fld := ⟨0x204c, 31, 0⟩
abbrev R.EVENT_DELIVERED : Nat := 0x2050
abbrev F.EVENT_DELIVERED_COUNT : Fld := ⟨0x2050, 31, 0⟩
abbrev R.EVENT_GATED : Nat := 0x2054
abbrev F.EVENT_GATED_COUNT : Fld := ⟨0x2054, 31, 0⟩
abbrev R.EVENT_COINC_LAST : Nat := 0x2058
abbrev F.EVENT_COINC_LAST_VALID : Fld := ⟨0x2058, 31, 31⟩
abbrev F.EVENT_COINC_LAST_SINK : Fld := ⟨0x2058, 7, 0⟩
abbrev R.EVENT_EVOUT_STAT : Nat := 0x205c
abbrev F.EVENT_EVOUT_STAT_QUEUED : Fld := ⟨0x205c, 23, 16⟩
abbrev F.EVENT_EVOUT_STAT_ACTIVE : Fld := ⟨0x205c, 15, 8⟩
abbrev F.EVENT_EVOUT_STAT_PIN : Fld := ⟨0x205c, 7, 0⟩
abbrev R.EVENT_EVOUT0 : Nat := 0x2060
abbrev F.EVENT_EVOUT0_WIDTH : Fld := ⟨0x2060, 31, 16⟩
abbrev F.EVENT_EVOUT0_LSRC : Fld := ⟨0x2060, 12, 8⟩
abbrev F.EVENT_EVOUT0_VAL : Fld := ⟨0x2060, 4, 4⟩
abbrev F.EVENT_EVOUT0_QUEUE : Fld := ⟨0x2060, 3, 3⟩
abbrev F.EVENT_EVOUT0_POL : Fld := ⟨0x2060, 2, 2⟩
abbrev F.EVENT_EVOUT0_MODE : Fld := ⟨0x2060, 1, 0⟩
abbrev R.EVENT_TMR0_CFG : Nat := 0x2080
abbrev F.EVENT_TMR0_CFG_REPEAT : Fld := ⟨0x2080, 31, 16⟩
abbrev F.EVENT_TMR0_CFG_BUSY : Fld := ⟨0x2080, 4, 3⟩
abbrev F.EVENT_TMR0_CFG_MODE : Fld := ⟨0x2080, 2, 1⟩
abbrev F.EVENT_TMR0_CFG_EN : Fld := ⟨0x2080, 0, 0⟩
abbrev R.EVENT_TMR0_DELAY : Nat := 0x2084
abbrev F.EVENT_TMR0_DELAY_CYCLES : Fld := ⟨0x2084, 31, 0⟩
abbrev R.EVENT_TMR0_PERIOD : Nat := 0x2088
abbrev F.EVENT_TMR0_PERIOD_CYCLES : Fld := ⟨0x2088, 31, 0⟩
abbrev R.EVENT_TMR0_STAT : Nat := 0x208c
abbrev F.EVENT_TMR0_STAT_LEFT : Fld := ⟨0x208c, 31, 8⟩
abbrev F.EVENT_TMR0_STAT_QUEUED : Fld := ⟨0x208c, 1, 1⟩
abbrev F.EVENT_TMR0_STAT_RUN : Fld := ⟨0x208c, 0, 0⟩
abbrev R.EVENT_TSCAP0_CFG : Nat := 0x2100
abbrev F.EVENT_TSCAP0_CFG_DONE : Fld := ⟨0x2100, 10, 10⟩
abbrev F.EVENT_TSCAP0_CFG_MODE : Fld := ⟨0x2100, 9, 9⟩
abbrev F.EVENT_TSCAP0_CFG_EN : Fld := ⟨0x2100, 8, 8⟩
abbrev F.EVENT_TSCAP0_CFG_SRC : Fld := ⟨0x2100, 7, 0⟩
abbrev R.EVENT_TSCAP0_T_LO : Nat := 0x2104
abbrev F.EVENT_TSCAP0_T_LO_T : Fld := ⟨0x2104, 31, 0⟩
abbrev R.EVENT_TSCAP0_T_HI : Nat := 0x2108
abbrev F.EVENT_TSCAP0_T_HI_T : Fld := ⟨0x2108, 31, 0⟩
abbrev R.EVENT_TSCAP0_COUNT : Nat := 0x210c
abbrev F.EVENT_TSCAP0_COUNT_COUNT : Fld := ⟨0x210c, 31, 0⟩
/-! CLOCK (Table 11-8) -/
abbrev R.CLOCK_CTRL : Nat := 0x3000
abbrev F.CLOCK_CTRL_BACKUP_EN : Fld := ⟨0x3000, 4, 4⟩
abbrev F.CLOCK_CTRL_REFSEL : Fld := ⟨0x3000, 1, 0⟩
abbrev R.CLOCK_STATUS : Nat := 0x3004
abbrev F.CLOCK_STATUS_X32_FAIL : Fld := ⟨0x3004, 7, 7⟩
abbrev F.CLOCK_STATUS_XTAL_FAIL : Fld := ⟨0x3004, 6, 6⟩
abbrev F.CLOCK_STATUS_STEP : Fld := ⟨0x3004, 5, 5⟩
abbrev F.CLOCK_STATUS_BACKUP : Fld := ⟨0x3004, 4, 4⟩
abbrev F.CLOCK_STATUS_LOL : Fld := ⟨0x3004, 3, 3⟩
abbrev F.CLOCK_STATUS_PHASE_JUMP : Fld := ⟨0x3004, 2, 2⟩
abbrev F.CLOCK_STATUS_REF_FREQ : Fld := ⟨0x3004, 1, 1⟩
abbrev F.CLOCK_STATUS_REF_LOST : Fld := ⟨0x3004, 0, 0⟩
abbrev R.CLOCK_STATE : Nat := 0x3008
abbrev F.CLOCK_STATE_EXPORT : Fld := ⟨0x3008, 6, 6⟩
abbrev F.CLOCK_STATE_RELOCK_PEND : Fld := ⟨0x3008, 5, 5⟩
abbrev F.CLOCK_STATE_BACKUP : Fld := ⟨0x3008, 4, 4⟩
abbrev F.CLOCK_STATE_STEERING : Fld := ⟨0x3008, 3, 3⟩
abbrev F.CLOCK_STATE_GLIDE : Fld := ⟨0x3008, 2, 2⟩
abbrev F.CLOCK_STATE_TRACEABLE : Fld := ⟨0x3008, 0, 0⟩
abbrev R.CLOCK_RELOCK : Nat := 0x300c
abbrev F.CLOCK_RELOCK_THRESH : Fld := ⟨0x300c, 31, 16⟩
abbrev F.CLOCK_RELOCK_GRP : Fld := ⟨0x300c, 11, 8⟩
abbrev F.CLOCK_RELOCK_LARGE : Fld := ⟨0x300c, 5, 4⟩
abbrev F.CLOCK_RELOCK_SMALL : Fld := ⟨0x300c, 1, 0⟩
abbrev R.CLOCK_SLEWCFG : Nat := 0x3010
abbrev F.CLOCK_SLEWCFG_SLEW : Fld := ⟨0x3010, 6, 0⟩
abbrev R.CLOCK_REFMON : Nat := 0x3014
abbrev F.CLOCK_REFMON_PPB : Fld := ⟨0x3014, 31, 0⟩
abbrev R.CLOCK_OFFSET_LO : Nat := 0x3018
abbrev F.CLOCK_OFFSET_LO_PS : Fld := ⟨0x3018, 31, 0⟩
abbrev R.CLOCK_OFFSET_HI : Nat := 0x301c
abbrev F.CLOCK_OFFSET_HI_PS : Fld := ⟨0x301c, 15, 0⟩
abbrev R.CLOCK_STEER_REM : Nat := 0x3020
abbrev F.CLOCK_STEER_REM_PS : Fld := ⟨0x3020, 31, 0⟩
abbrev R.CLOCK_GLIDE_TIME : Nat := 0x3024
abbrev F.CLOCK_GLIDE_TIME_MS : Fld := ⟨0x3024, 31, 0⟩
abbrev R.CLOCK_GLIDE_COUNT : Nat := 0x3028
abbrev F.CLOCK_GLIDE_COUNT_COUNT : Fld := ⟨0x3028, 31, 0⟩
abbrev R.CLOCK_JUMP_COUNT : Nat := 0x302c
abbrev F.CLOCK_JUMP_COUNT_COUNT : Fld := ⟨0x302c, 31, 0⟩
abbrev R.CLOCK_STEP_COUNT : Nat := 0x3030
abbrev F.CLOCK_STEP_COUNT_COUNT : Fld := ⟨0x3030, 31, 0⟩
abbrev R.CLOCK_TRACE_TIME : Nat := 0x3034
abbrev F.CLOCK_TRACE_TIME_MS : Fld := ⟨0x3034, 31, 0⟩
abbrev R.CLOCK_EVT_LO : Nat := 0x3038
abbrev F.CLOCK_EVT_LO_NS : Fld := ⟨0x3038, 31, 0⟩
abbrev R.CLOCK_EVT_HI : Nat := 0x303c
abbrev F.CLOCK_EVT_HI_NS : Fld := ⟨0x303c, 31, 0⟩
abbrev R.CLOCK_REFOUT : Nat := 0x3040
abbrev F.CLOCK_REFOUT_DLY : Fld := ⟨0x3040, 13, 8⟩
abbrev F.CLOCK_REFOUT_FREQ : Fld := ⟨0x3040, 4, 4⟩
abbrev F.CLOCK_REFOUT_EN : Fld := ⟨0x3040, 0, 0⟩
abbrev R.CLOCK_REFIN_TRIM : Nat := 0x3044
abbrev F.CLOCK_REFIN_TRIM_PS : Fld := ⟨0x3044, 15, 0⟩
abbrev R.CLOCK_BACKUP_ERR : Nat := 0x3048
abbrev F.CLOCK_BACKUP_ERR_PS : Fld := ⟨0x3048, 15, 0⟩
abbrev R.CLOCK_XTAL_ERR : Nat := 0x304c
abbrev F.CLOCK_XTAL_ERR_PPB : Fld := ⟨0x304c, 31, 0⟩
abbrev R.CLOCK_LOCK_PIN : Nat := 0x3050
abbrev F.CLOCK_LOCK_PIN_MODE_B : Fld := ⟨0x3050, 5, 4⟩
abbrev F.CLOCK_LOCK_PIN_MODE_A : Fld := ⟨0x3050, 1, 0⟩
abbrev R.CLOCK_CROSS_SEL : Nat := 0x3054
abbrev F.CLOCK_CROSS_SEL_ROW : Fld := ⟨0x3054, 3, 0⟩
abbrev R.CLOCK_CROSS_LAT : Nat := 0x3058
abbrev F.CLOCK_CROSS_LAT_MAX : Fld := ⟨0x3058, 31, 16⟩
abbrev F.CLOCK_CROSS_LAT_LAST : Fld := ⟨0x3058, 15, 0⟩
abbrev R.CLOCK_X32_STAT : Nat := 0x305c
abbrev F.CLOCK_X32_STAT_PPM : Fld := ⟨0x305c, 31, 16⟩
abbrev F.CLOCK_X32_STAT_RUN : Fld := ⟨0x305c, 0, 0⟩
abbrev R.CLOCK_L0_LCFG : Nat := 0x3080
abbrev F.CLOCK_L0_LCFG_LOGN : Fld := ⟨0x3080, 11, 8⟩
abbrev F.CLOCK_L0_LCFG_WIN : Fld := ⟨0x3080, 2, 0⟩
abbrev R.CLOCK_L0_LSTAT : Nat := 0x3084
abbrev F.CLOCK_L0_LSTAT_PHERR : Fld := ⟨0x3084, 31, 16⟩
abbrev F.CLOCK_L0_LSTAT_TUNE_RAIL : Fld := ⟨0x3084, 5, 5⟩
abbrev F.CLOCK_L0_LSTAT_LOCKED : Fld := ⟨0x3084, 4, 4⟩
abbrev F.CLOCK_L0_LSTAT_LSTATE : Fld := ⟨0x3084, 3, 0⟩
abbrev R.CLOCK_L0_DIV : Nat := 0x3088
abbrev F.CLOCK_L0_DIV_N : Fld := ⟨0x3088, 19, 8⟩
abbrev F.CLOCK_L0_DIV_R : Fld := ⟨0x3088, 7, 0⟩
abbrev R.CLOCK_L0_PHASE : Nat := 0x308c
abbrev F.CLOCK_L0_PHASE_PS : Fld := ⟨0x308c, 31, 0⟩
abbrev R.CLOCK_L0_TUNE : Nat := 0x3090
abbrev F.CLOCK_L0_TUNE_WORD : Fld := ⟨0x3090, 23, 0⟩
abbrev R.CLOCK_L0_LOLCNT : Nat := 0x3094
abbrev F.CLOCK_L0_LOLCNT_COUNT : Fld := ⟨0x3094, 31, 0⟩
/-! POWER (Table 16-11) -/
abbrev R.POWER_CTRL : Nat := 0x4000
abbrev F.POWER_CTRL_SAFE_ACCEPT : Fld := ⟨0x4000, 1, 1⟩
abbrev F.POWER_CTRL_SAFE_PROP : Fld := ⟨0x4000, 0, 0⟩
abbrev R.POWER_STATUS : Nat := 0x4004
abbrev F.POWER_STATUS_DERATE : Fld := ⟨0x4004, 6, 6⟩
abbrev F.POWER_STATUS_SAFE : Fld := ⟨0x4004, 5, 5⟩
abbrev F.POWER_STATUS_TIMEOUT : Fld := ⟨0x4004, 4, 4⟩
abbrev F.POWER_STATUS_DENY : Fld := ⟨0x4004, 3, 3⟩
abbrev F.POWER_STATUS_QUEUED : Fld := ⟨0x4004, 2, 2⟩
abbrev F.POWER_STATUS_DEFER : Fld := ⟨0x4004, 1, 1⟩
abbrev F.POWER_STATUS_OVER : Fld := ⟨0x4004, 0, 0⟩
abbrev R.POWER_PKG_CAP : Nat := 0x4008
abbrev F.POWER_PKG_CAP_CAP : Fld := ⟨0x4008, 15, 0⟩
abbrev R.POWER_PKG_RSV : Nat := 0x400c
abbrev F.POWER_PKG_RSV_SAFETY : Fld := ⟨0x400c, 31, 16⟩
abbrev F.POWER_PKG_RSV_TOTAL : Fld := ⟨0x400c, 15, 0⟩
abbrev R.POWER_CDIE_RSV : Nat := 0x4010
abbrev F.POWER_CDIE_RSV_SAFETY : Fld := ⟨0x4010, 31, 16⟩
abbrev F.POWER_CDIE_RSV_TOTAL : Fld := ⟨0x4010, 15, 0⟩
abbrev R.POWER_ADIE0_RSV : Nat := 0x4014
abbrev F.POWER_ADIE0_RSV_SAFETY : Fld := ⟨0x4014, 31, 16⟩
abbrev F.POWER_ADIE0_RSV_TOTAL : Fld := ⟨0x4014, 15, 0⟩
abbrev R.POWER_ADIE1_RSV : Nat := 0x4018
abbrev F.POWER_ADIE1_RSV_SAFETY : Fld := ⟨0x4018, 31, 16⟩
abbrev F.POWER_ADIE1_RSV_TOTAL : Fld := ⟨0x4018, 15, 0⟩
abbrev R.POWER_RGN0_RSV : Nat := 0x401c
abbrev F.POWER_RGN0_RSV_SAFETY : Fld := ⟨0x401c, 31, 16⟩
abbrev F.POWER_RGN0_RSV_TOTAL : Fld := ⟨0x401c, 15, 0⟩
abbrev R.POWER_LIM_ADIE : Nat := 0x402c
abbrev F.POWER_LIM_ADIE_ADIE1 : Fld := ⟨0x402c, 31, 16⟩
abbrev F.POWER_LIM_ADIE_ADIE0 : Fld := ⟨0x402c, 15, 0⟩
abbrev R.POWER_LIM_CDIE : Nat := 0x4030
abbrev F.POWER_LIM_CDIE_CDIE : Fld := ⟨0x4030, 15, 0⟩
abbrev R.POWER_DERATE : Nat := 0x4034
abbrev F.POWER_DERATE_HYST : Fld := ⟨0x4034, 15, 8⟩
abbrev F.POWER_DERATE_T : Fld := ⟨0x4034, 7, 0⟩
abbrev R.POWER_QCFG : Nat := 0x4038
abbrev F.POWER_QCFG_TO_UNIT : Fld := ⟨0x4038, 31, 16⟩
abbrev F.POWER_QCFG_TO_CMD : Fld := ⟨0x4038, 15, 0⟩
abbrev R.POWER_QSTAT : Nat := 0x403c
abbrev F.POWER_QSTAT_HIGHEST : Fld := ⟨0x403c, 13, 8⟩
abbrev F.POWER_QSTAT_QUEUED : Fld := ⟨0x403c, 5, 0⟩
abbrev R.POWER_LAST_REFUSE : Nat := 0x4040
abbrev F.POWER_LAST_REFUSE_STATUS : Fld := ⟨0x4040, 31, 24⟩
abbrev F.POWER_LAST_REFUSE_LEDGER : Fld := ⟨0x4040, 18, 16⟩
abbrev F.POWER_LAST_REFUSE_INDEX : Fld := ⟨0x4040, 7, 0⟩
abbrev R.POWER_GRANTS : Nat := 0x4044
abbrev F.POWER_GRANTS_COUNT : Fld := ⟨0x4044, 31, 0⟩
abbrev R.POWER_DENIES : Nat := 0x4048
abbrev F.POWER_DENIES_COUNT : Fld := ⟨0x4048, 31, 0⟩
abbrev R.POWER_TIMEOUTS : Nat := 0x404c
abbrev F.POWER_TIMEOUTS_COUNT : Fld := ⟨0x404c, 31, 0⟩
abbrev R.POWER_PEAK_PKG : Nat := 0x4050
abbrev F.POWER_PEAK_PKG_MW : Fld := ⟨0x4050, 15, 0⟩
abbrev R.POWER_HSEL : Nat := 0x4054
abbrev F.POWER_HSEL_HANDLE : Fld := ⟨0x4054, 2, 0⟩
abbrev R.POWER_HSTAT : Nat := 0x4058
abbrev F.POWER_HSTAT_STATE : Fld := ⟨0x4058, 31, 30⟩
abbrev F.POWER_HSTAT_BG : Fld := ⟨0x4058, 29, 29⟩
abbrev F.POWER_HSTAT_LEDGER : Fld := ⟨0x4058, 18, 16⟩
abbrev F.POWER_HSTAT_AMOUNT : Fld := ⟨0x4058, 15, 0⟩
abbrev R.POWER_MODECFG : Nat := 0x405c
abbrev F.POWER_MODECFG_DEADLINE : Fld := ⟨0x405c, 15, 0⟩
abbrev R.POWER_MODE_LAST : Nat := 0x4060
abbrev F.POWER_MODE_LAST_ABANDONED : Fld := ⟨0x4060, 31, 31⟩
abbrev F.POWER_MODE_LAST_TARGET : Fld := ⟨0x4060, 26, 24⟩
abbrev F.POWER_MODE_LAST_REASON : Fld := ⟨0x4060, 18, 16⟩
abbrev F.POWER_MODE_LAST_DETAIL : Fld := ⟨0x4060, 15, 0⟩
abbrev R.POWER_SAFE_CAUSE : Nat := 0x4064
abbrev F.POWER_SAFE_CAUSE_CAUSE : Fld := ⟨0x4064, 3, 0⟩
abbrev R.POWER_SAFE_TIME_LO : Nat := 0x4068
abbrev F.POWER_SAFE_TIME_LO_NS : Fld := ⟨0x4068, 31, 0⟩
abbrev R.POWER_SAFE_TIME_HI : Nat := 0x406c
abbrev F.POWER_SAFE_TIME_HI_NS : Fld := ⟨0x406c, 31, 0⟩
abbrev R.POWER_VMON : Nat := 0x4070
abbrev F.POWER_VMON_LOW : Fld := ⟨0x4070, 9, 0⟩
abbrev R.POWER_DIPS : Nat := 0x4074
abbrev F.POWER_DIPS_COUNT : Fld := ⟨0x4074, 31, 0⟩
abbrev R.POWER_FIXED : Nat := 0x4078
abbrev F.POWER_FIXED_CDIE_BASE : Fld := ⟨0x4078, 31, 16⟩
abbrev F.POWER_FIXED_PKG_FIXED : Fld := ⟨0x4078, 15, 0⟩
abbrev R.POWER_RGN_BASE : Nat := 0x407c
abbrev F.POWER_RGN_BASE_BASE : Fld := ⟨0x407c, 15, 0⟩
/-! PATROL (R382, Table 16-13) -/
abbrev R.PATROL_CTRL : Nat := 0x5000
abbrev F.PATROL_CTRL_LOG_FREEZE : Fld := ⟨0x5000, 0, 0⟩
abbrev R.PATROL_STATUS : Nat := 0x5004
abbrev F.PATROL_STATUS_LOG_WRAP : Fld := ⟨0x5004, 10, 10⟩
abbrev F.PATROL_STATUS_TRK_OVF : Fld := ⟨0x5004, 9, 9⟩
abbrev F.PATROL_STATUS_LASTING : Fld := ⟨0x5004, 8, 0⟩
abbrev R.PATROL_FAULTN : Nat := 0x5008
abbrev F.PATROL_FAULTN_PIN : Fld := ⟨0x5008, 31, 31⟩
abbrev F.PATROL_FAULTN_CAUSE : Fld := ⟨0x5008, 12, 0⟩
abbrev R.PATROL_RGN_STATE : Nat := 0x500c
abbrev F.PATROL_RGN_STATE_HELD : Fld := ⟨0x500c, 11, 8⟩
abbrev F.PATROL_RGN_STATE_LINK_LOST : Fld := ⟨0x500c, 7, 4⟩
abbrev F.PATROL_RGN_STATE_SAFE : Fld := ⟨0x500c, 3, 0⟩
abbrev R.PATROL_LOG_HEAD : Nat := 0x5010
abbrev F.PATROL_LOG_HEAD_TOTAL : Fld := ⟨0x5010, 31, 16⟩
abbrev F.PATROL_LOG_HEAD_NEXT : Fld := ⟨0x5010, 7, 0⟩
abbrev R.PATROL_LOG_SEL : Nat := 0x5014
abbrev F.PATROL_LOG_SEL_ENTRY : Fld := ⟨0x5014, 7, 0⟩
abbrev R.PATROL_LOG_W0 : Nat := 0x5018
abbrev F.PATROL_LOG_W0_WORD : Fld := ⟨0x5018, 31, 0⟩
abbrev R.PATROL_TRANSIENTS : Nat := 0x5028
abbrev F.PATROL_TRANSIENTS_COUNT : Fld := ⟨0x5028, 31, 0⟩
abbrev R.PATROL_LASTINGS : Nat := 0x502c
abbrev F.PATROL_LASTINGS_COUNT : Fld := ⟨0x502c, 31, 0⟩
abbrev R.PATROL_LAST_LASTING : Nat := 0x5030
abbrev F.PATROL_LAST_LASTING_CLASS : Fld := ⟨0x5030, 27, 24⟩
abbrev F.PATROL_LAST_LASTING_OBJECT : Fld := ⟨0x5030, 21, 0⟩
abbrev R.PATROL_TRK_OVF : Nat := 0x5034
abbrev F.PATROL_TRK_OVF_COUNT : Fld := ⟨0x5034, 31, 0⟩
abbrev R.PATROL_RECOVERIES : Nat := 0x5038
abbrev F.PATROL_RECOVERIES_COUNT : Fld := ⟨0x5038, 31, 0⟩
abbrev R.PATROL_TEST : Nat := 0x503c
abbrev F.PATROL_TEST_GO : Fld := ⟨0x503c, 31, 31⟩
abbrev F.PATROL_TEST_CLASS : Fld := ⟨0x503c, 27, 24⟩
abbrev F.PATROL_TEST_OBJECT : Fld := ⟨0x503c, 21, 0⟩
abbrev R.PATROL_CLS0_CFG : Nat := 0x5040
abbrev F.PATROL_CLS0_CFG_ACTION : Fld := ⟨0x5040, 28, 24⟩
abbrev F.PATROL_CLS0_CFG_THRESH : Fld := ⟨0x5040, 23, 16⟩
abbrev F.PATROL_CLS0_CFG_WIN : Fld := ⟨0x5040, 15, 0⟩
abbrev R.PATROL_CLS0_CNT : Nat := 0x5044
abbrev F.PATROL_CLS0_CNT_COUNT : Fld := ⟨0x5044, 31, 0⟩
abbrev R.PATROL_CLS0_LAST : Nat := 0x5048
abbrev F.PATROL_CLS0_LAST_OPEN : Fld := ⟨0x5048, 31, 24⟩
abbrev F.PATROL_CLS0_LAST_OBJECT : Fld := ⟨0x5048, 21, 0⟩
abbrev R.PATROL_DIS_PD_LO : Nat := 0x50d0
abbrev F.PATROL_DIS_PD_LO_MASK : Fld := ⟨0x50d0, 31, 0⟩
abbrev R.PATROL_DIS_PD_HI : Nat := 0x50d4
abbrev F.PATROL_DIS_PD_HI_MASK : Fld := ⟨0x50d4, 31, 0⟩
abbrev R.PATROL_TEMP_LIM : Nat := 0x50d8
abbrev F.PATROL_TEMP_LIM_CDIE : Fld := ⟨0x50d8, 23, 16⟩
abbrev F.PATROL_TEMP_LIM_ADIE1 : Fld := ⟨0x50d8, 15, 8⟩
abbrev F.PATROL_TEMP_LIM_ADIE0 : Fld := ⟨0x50d8, 7, 0⟩
abbrev R.PATROL_TEMP_NOW : Nat := 0x50dc
abbrev F.PATROL_TEMP_NOW_CDIE : Fld := ⟨0x50dc, 23, 16⟩
abbrev F.PATROL_TEMP_NOW_ADIE1 : Fld := ⟨0x50dc, 15, 8⟩
abbrev F.PATROL_TEMP_NOW_ADIE0 : Fld := ⟨0x50dc, 7, 0⟩
abbrev R.PATROL_TEMP_MAX : Nat := 0x50e0
abbrev F.PATROL_TEMP_MAX_CDIE : Fld := ⟨0x50e0, 23, 16⟩
abbrev F.PATROL_TEMP_MAX_ADIE1 : Fld := ⟨0x50e0, 15, 8⟩
abbrev F.PATROL_TEMP_MAX_ADIE0 : Fld := ⟨0x50e0, 7, 0⟩
/-! CAL (Table 15-9) -/
abbrev R.CAL_STATE : Nat := 0x6000
abbrev F.CAL_STATE_DONE : Fld := ⟨0x6000, 31, 24⟩
abbrev F.CAL_STATE_TOTAL : Fld := ⟨0x6000, 23, 16⟩
abbrev F.CAL_STATE_PHASE : Fld := ⟨0x6000, 2, 0⟩
abbrev R.CAL_STATUS : Nat := 0x6004
abbrev F.CAL_STATUS_UNCAL : Fld := ⟨0x6004, 7, 7⟩
abbrev F.CAL_STATUS_FACTORY : Fld := ⟨0x6004, 6, 6⟩
abbrev F.CAL_STATUS_AUDIT_RECOVERED : Fld := ⟨0x6004, 5, 5⟩
abbrev F.CAL_STATUS_AUDIT_WRAP : Fld := ⟨0x6004, 4, 4⟩
abbrev F.CAL_STATUS_DISCARDED : Fld := ⟨0x6004, 3, 3⟩
abbrev F.CAL_STATUS_COMMITTED : Fld := ⟨0x6004, 2, 2⟩
abbrev F.CAL_STATUS_REJECT : Fld := ⟨0x6004, 1, 1⟩
abbrev F.CAL_STATUS_REF_MISSING : Fld := ⟨0x6004, 0, 0⟩
abbrev R.CAL_PEND_PD_LO : Nat := 0x6008
abbrev F.CAL_PEND_PD_LO_MASK : Fld := ⟨0x6008, 31, 0⟩
abbrev R.CAL_PEND_PD_HI : Nat := 0x600c
abbrev F.CAL_PEND_PD_HI_MASK : Fld := ⟨0x600c, 31, 0⟩
abbrev R.CAL_PEND_A : Nat := 0x6010
abbrev F.CAL_PEND_A_MASK : Fld := ⟨0x6010, 31, 0⟩
abbrev R.CAL_PEND_LC : Nat := 0x6014
abbrev F.CAL_PEND_LC_MASK : Fld := ⟨0x6014, 7, 0⟩
abbrev R.CAL_REF_VAL_LO : Nat := 0x6018
abbrev F.CAL_REF_VAL_LO_NV : Fld := ⟨0x6018, 31, 0⟩
abbrev R.CAL_REF_VAL_HI : Nat := 0x601c
abbrev F.CAL_REF_VAL_HI_NV : Fld := ⟨0x601c, 31, 0⟩
abbrev R.CAL_RES_VAL_LO : Nat := 0x6020
abbrev F.CAL_RES_VAL_LO_UOHM : Fld := ⟨0x6020, 31, 0⟩
abbrev R.CAL_RES_VAL_HI : Nat := 0x6024
abbrev F.CAL_RES_VAL_HI_UOHM : Fld := ⟨0x6024, 31, 0⟩
abbrev R.CAL_REF_ID : Nat := 0x6028
abbrev F.CAL_REF_ID_ID : Fld := ⟨0x6028, 31, 0⟩
abbrev R.CAL_RES_ID : Nat := 0x602c
abbrev F.CAL_RES_ID_ID : Fld := ⟨0x602c, 31, 0⟩
abbrev R.CAL_REF_DEV : Nat := 0x6030
abbrev F.CAL_REF_DEV_PPM : Fld := ⟨0x6030, 31, 0⟩
abbrev R.CAL_REF_DRIFT : Nat := 0x6034
abbrev F.CAL_REF_DRIFT_PPM : Fld := ⟨0x6034, 31, 0⟩
abbrev R.CAL_SEL : Nat := 0x6038
abbrev F.CAL_SEL_VIEW : Fld := ⟨0x6038, 31, 31⟩
abbrev F.CAL_SEL_LANE : Fld := ⟨0x6038, 18, 16⟩
abbrev F.CAL_SEL_SLOT : Fld := ⟨0x6038, 11, 8⟩
abbrev F.CAL_SEL_UNIT : Fld := ⟨0x6038, 6, 0⟩
abbrev R.CAL_RESIDUAL : Nat := 0x603c
abbrev F.CAL_RESIDUAL_PPM : Fld := ⟨0x603c, 31, 0⟩
abbrev R.CAL_GAIN_MOVE : Nat := 0x6040
abbrev F.CAL_GAIN_MOVE_PPM : Fld := ⟨0x6040, 31, 0⟩
abbrev R.CAL_OFFS_MOVE : Nat := 0x6044
abbrev F.CAL_OFFS_MOVE_PPM : Fld := ⟨0x6044, 31, 0⟩
abbrev R.CAL_INL_MAX : Nat := 0x6048
abbrev F.CAL_INL_MAX_PPM : Fld := ⟨0x6048, 15, 0⟩
abbrev R.CAL_TIMING : Nat := 0x604c
abbrev F.CAL_TIMING_RES : Fld := ⟨0x604c, 31, 16⟩
abbrev F.CAL_TIMING_TAP : Fld := ⟨0x604c, 5, 0⟩
abbrev R.CAL_XDELAY : Nat := 0x6050
abbrev F.CAL_XDELAY_PS : Fld := ⟨0x6050, 31, 0⟩
abbrev R.CAL_EYE : Nat := 0x6054
abbrev F.CAL_EYE_PS : Fld := ⟨0x6054, 15, 0⟩
abbrev R.CAL_REJ_INFO : Nat := 0x6058
abbrev F.CAL_REJ_INFO_REASON : Fld := ⟨0x6058, 31, 24⟩
abbrev F.CAL_REJ_INFO_VALID : Fld := ⟨0x6058, 16, 16⟩
abbrev F.CAL_REJ_INFO_SLOT : Fld := ⟨0x6058, 11, 8⟩
abbrev F.CAL_REJ_INFO_UNIT : Fld := ⟨0x6058, 6, 0⟩
abbrev R.CAL_REC_INFO : Nat := 0x605c
abbrev F.CAL_REC_INFO_FACTORY : Fld := ⟨0x605c, 31, 31⟩
abbrev F.CAL_REC_INFO_UNCAL : Fld := ⟨0x605c, 30, 30⟩
abbrev F.CAL_REC_INFO_BANK : Fld := ⟨0x605c, 29, 29⟩
abbrev F.CAL_REC_INFO_SEQ : Fld := ⟨0x605c, 23, 0⟩
abbrev R.CAL_REC_TIME : Nat := 0x6060
abbrev F.CAL_REC_TIME_SEC : Fld := ⟨0x6060, 31, 0⟩
abbrev R.CAL_REC_TEMP : Nat := 0x6064
abbrev F.CAL_REC_TEMP_TCAL : Fld := ⟨0x6064, 15, 0⟩
abbrev R.CAL_AUDIT_SEQ_LO : Nat := 0x6068
abbrev F.CAL_AUDIT_SEQ_LO_SEQ : Fld := ⟨0x6068, 31, 0⟩
abbrev R.CAL_AUDIT_SEQ_HI : Nat := 0x606c
abbrev F.CAL_AUDIT_SEQ_HI_SEQ : Fld := ⟨0x606c, 31, 0⟩
abbrev R.CAL_AUDIT_STAT : Nat := 0x6070
abbrev F.CAL_AUDIT_STAT_STORED : Fld := ⟨0x6070, 16, 0⟩
abbrev R.CAL_COMMITS : Nat := 0x6074
abbrev F.CAL_COMMITS_COUNT : Fld := ⟨0x6074, 31, 0⟩
abbrev R.CAL_REJECTS : Nat := 0x6078
abbrev F.CAL_REJECTS_COUNT : Fld := ⟨0x6078, 31, 0⟩
abbrev R.CAL_RUNS : Nat := 0x607c
abbrev F.CAL_RUNS_COUNT : Fld := ⟨0x607c, 31, 0⟩
/-! NVM (Table 17-9) -/
abbrev R.NVM_CTRL : Nat := 0x7000
abbrev F.NVM_CTRL_DPD_EN : Fld := ⟨0x7000, 0, 0⟩
abbrev R.NVM_STATUS : Nat := 0x7004
abbrev F.NVM_STATUS_INTERRUPTED : Fld := ⟨0x7004, 5, 5⟩
abbrev F.NVM_STATUS_IMAGE_BAD : Fld := ⟨0x7004, 4, 4⟩
abbrev F.NVM_STATUS_TABLE_BAD : Fld := ⟨0x7004, 3, 3⟩
abbrev F.NVM_STATUS_VERIFY_FAIL : Fld := ⟨0x7004, 2, 2⟩
abbrev F.NVM_STATUS_ERASE_FAIL : Fld := ⟨0x7004, 1, 1⟩
abbrev F.NVM_STATUS_PROG_FAIL : Fld := ⟨0x7004, 0, 0⟩
abbrev R.NVM_STATE : Nat := 0x7008
abbrev F.NVM_STATE_DPD : Fld := ⟨0x7008, 16, 16⟩
abbrev F.NVM_STATE_OP : Fld := ⟨0x7008, 3, 1⟩
abbrev F.NVM_STATE_BUSY : Fld := ⟨0x7008, 0, 0⟩
abbrev R.NVM_OP_ADDR : Nat := 0x700c
abbrev F.NVM_OP_ADDR_ADDR : Fld := ⟨0x700c, 25, 0⟩
abbrev R.NVM_PROGS : Nat := 0x7010
abbrev F.NVM_PROGS_COUNT : Fld := ⟨0x7010, 31, 0⟩
abbrev R.NVM_ERASES : Nat := 0x7014
abbrev F.NVM_ERASES_COUNT : Fld := ⟨0x7014, 31, 0⟩
abbrev R.NVM_FAILS : Nat := 0x7018
abbrev F.NVM_FAILS_COUNT : Fld := ⟨0x7018, 31, 0⟩
abbrev R.NVM_TBL_SEQ : Nat := 0x701c
abbrev F.NVM_TBL_SEQ_SEQ : Fld := ⟨0x701c, 31, 0⟩
abbrev R.NVM_BOOT : Nat := 0x7020
abbrev F.NVM_BOOT_BOOT_REC_BAD : Fld := ⟨0x7020, 4, 4⟩
abbrev F.NVM_BOOT_FELL_BACK : Fld := ⟨0x7020, 3, 3⟩
abbrev F.NVM_BOOT_B_VALID : Fld := ⟨0x7020, 2, 2⟩
abbrev F.NVM_BOOT_A_VALID : Fld := ⟨0x7020, 1, 1⟩
abbrev F.NVM_BOOT_PREF : Fld := ⟨0x7020, 0, 0⟩
abbrev R.NVM_SLOTA_VER : Nat := 0x7024
abbrev F.NVM_SLOTA_VER_VERSION : Fld := ⟨0x7024, 31, 0⟩
abbrev R.NVM_SLOTB_VER : Nat := 0x7028
abbrev F.NVM_SLOTB_VER_VERSION : Fld := ⟨0x7028, 31, 0⟩
abbrev R.NVM_STARTUP : Nat := 0x702c
abbrev F.NVM_STARTUP_TIME : Fld := ⟨0x702c, 31, 16⟩
abbrev F.NVM_STARTUP_FAIL : Fld := ⟨0x702c, 7, 4⟩
abbrev F.NVM_STARTUP_STEP : Fld := ⟨0x702c, 3, 0⟩
abbrev R.NVM_UREC_BAD_LO : Nat := 0x7030
abbrev F.NVM_UREC_BAD_LO_MASK : Fld := ⟨0x7030, 31, 0⟩
abbrev R.NVM_UREC_BAD_HI : Nat := 0x7034
abbrev F.NVM_UREC_BAD_HI_MASK : Fld := ⟨0x7034, 31, 0⟩
abbrev R.NVM_LREC_BAD : Nat := 0x7038
abbrev F.NVM_LREC_BAD_MASK : Fld := ⟨0x7038, 7, 0⟩
abbrev R.NVM_RETIRED_MAP : Nat := 0x703c
abbrev F.NVM_RETIRED_MAP_PAGES : Fld := ⟨0x703c, 10, 0⟩
/-! AON (Table 16-14) -/
abbrev R.AON_CTRL : Nat := 0x8000
abbrev F.AON_CTRL_ALARM_WAKE : Fld := ⟨0x8000, 2, 2⟩
abbrev F.AON_CTRL_ALARM_EN : Fld := ⟨0x8000, 1, 1⟩
abbrev F.AON_CTRL_RTC_SET : Fld := ⟨0x8000, 0, 0⟩
abbrev R.AON_STATUS : Nat := 0x8004
abbrev F.AON_STATUS_X32_STOP : Fld := ⟨0x8004, 4, 4⟩
abbrev F.AON_STATUS_VAON_LOW : Fld := ⟨0x8004, 3, 3⟩
abbrev F.AON_STATUS_CMP : Fld := ⟨0x8004, 2, 2⟩
abbrev F.AON_STATUS_WDOG_EXP : Fld := ⟨0x8004, 1, 1⟩
abbrev F.AON_STATUS_ALARM : Fld := ⟨0x8004, 0, 0⟩
abbrev R.AON_RTC_LO : Nat := 0x8008
abbrev F.AON_RTC_LO_SEC : Fld := ⟨0x8008, 31, 0⟩
abbrev R.AON_RTC_HI : Nat := 0x800c
abbrev F.AON_RTC_HI_SEC : Fld := ⟨0x800c, 15, 0⟩
abbrev R.AON_RTC_SUB : Nat := 0x8010
abbrev F.AON_RTC_SUB_TICKS : Fld := ⟨0x8010, 14, 0⟩
abbrev R.AON_ALARM_LO : Nat := 0x8014
abbrev F.AON_ALARM_LO_SEC : Fld := ⟨0x8014, 31, 0⟩
abbrev R.AON_ALARM_HI : Nat := 0x8018
abbrev F.AON_ALARM_HI_SEC : Fld := ⟨0x8018, 15, 0⟩
abbrev R.AON_WDOG_CFG : Nat := 0x801c
abbrev F.AON_WDOG_CFG_PERIOD : Fld := ⟨0x801c, 31, 16⟩
abbrev F.AON_WDOG_CFG_ACTION : Fld := ⟨0x801c, 4, 4⟩
abbrev F.AON_WDOG_CFG_EN : Fld := ⟨0x801c, 0, 0⟩
abbrev R.AON_WDOG_KICK : Nat := 0x8020
abbrev F.AON_WDOG_KICK_KICK : Fld := ⟨0x8020, 31, 0⟩
abbrev R.AON_WDOG_CNT : Nat := 0x8024
abbrev F.AON_WDOG_CNT_MS : Fld := ⟨0x8024, 15, 0⟩
abbrev R.AON_CMP_STATE : Nat := 0x8028
abbrev F.AON_CMP_STATE_LATCH : Fld := ⟨0x8028, 15, 8⟩
abbrev F.AON_CMP_STATE_LEVEL : Fld := ⟨0x8028, 7, 0⟩
abbrev R.AON_WAKE_CAUSE : Nat := 0x802c
abbrev F.AON_WAKE_CAUSE_CMP : Fld := ⟨0x802c, 10, 8⟩
abbrev F.AON_WAKE_CAUSE_SRC : Fld := ⟨0x802c, 2, 0⟩
abbrev R.AON_SLEEP_COUNT : Nat := 0x8030
abbrev F.AON_SLEEP_COUNT_COUNT : Fld := ⟨0x8030, 31, 0⟩
abbrev R.AON_VAON_MON : Nat := 0x8034
abbrev F.AON_VAON_MON_MV : Fld := ⟨0x8034, 15, 0⟩
abbrev R.AON_SCRATCH0 : Nat := 0x8038
abbrev F.AON_SCRATCH0_DATA : Fld := ⟨0x8038, 31, 0⟩
abbrev R.AON_CMP0_CFG : Nat := 0x8040
abbrev F.AON_CMP0_CFG_SAFE : Fld := ⟨0x8040, 14, 14⟩
abbrev F.AON_CMP0_CFG_FAULTN : Fld := ⟨0x8040, 13, 13⟩
abbrev F.AON_CMP0_CFG_WAKE : Fld := ⟨0x8040, 12, 12⟩
abbrev F.AON_CMP0_CFG_HYST : Fld := ⟨0x8040, 10, 8⟩
abbrev F.AON_CMP0_CFG_FILT : Fld := ⟨0x8040, 7, 4⟩
abbrev F.AON_CMP0_CFG_MODE : Fld := ⟨0x8040, 2, 1⟩
abbrev F.AON_CMP0_CFG_EN : Fld := ⟨0x8040, 0, 0⟩
abbrev R.AON_CMP0_THR : Nat := 0x8044
abbrev F.AON_CMP0_THR_HI : Fld := ⟨0x8044, 27, 16⟩
abbrev F.AON_CMP0_THR_LO : Fld := ⟨0x8044, 11, 0⟩
/-! GYDEN (Table 10-12) -/
abbrev R.GYDEN_CONFIG : Nat := 0x9000
abbrev F.GYDEN_CONFIG_NODE : Fld := ⟨0x9000, 7, 4⟩
abbrev F.GYDEN_CONFIG_MASTER : Fld := ⟨0x9000, 1, 1⟩
abbrev F.GYDEN_CONFIG_EN : Fld := ⟨0x9000, 0, 0⟩
abbrev R.GYDEN_STATUS : Nat := 0x9004
abbrev F.GYDEN_STATUS_NODE_LOST : Fld := ⟨0x9004, 8, 8⟩
abbrev F.GYDEN_STATUS_RX_OVR : Fld := ⟨0x9004, 6, 6⟩
abbrev F.GYDEN_STATUS_GDAT_CRC : Fld := ⟨0x9004, 5, 5⟩
abbrev F.GYDEN_STATUS_TX_DROP : Fld := ⟨0x9004, 4, 4⟩
abbrev F.GYDEN_STATUS_MASTER_CONFLICT : Fld := ⟨0x9004, 3, 3⟩
abbrev F.GYDEN_STATUS_DUP_NODE : Fld := ⟨0x9004, 2, 2⟩
abbrev F.GYDEN_STATUS_SPAN : Fld := ⟨0x9004, 1, 1⟩
abbrev F.GYDEN_STATUS_GCLK_LOST : Fld := ⟨0x9004, 0, 0⟩
abbrev R.GYDEN_STATE : Nat := 0x9008
abbrev F.GYDEN_STATE_DLY_PEND : Fld := ⟨0x9008, 9, 9⟩
abbrev F.GYDEN_STATE_MASTER_NODE : Fld := ⟨0x9008, 7, 4⟩
abbrev F.GYDEN_STATE_LINK : Fld := ⟨0x9008, 1, 0⟩
abbrev R.GYDEN_LSYS : Nat := 0x900c
abbrev F.GYDEN_LSYS_NS : Fld := ⟨0x900c, 15, 0⟩
abbrev R.GYDEN_DLY : Nat := 0x9010
abbrev F.GYDEN_DLY_PS : Fld := ⟨0x9010, 31, 0⟩
abbrev R.GYDEN_DLY_MEAS : Nat := 0x9014
abbrev F.GYDEN_DLY_MEAS_PS : Fld := ⟨0x9014, 31, 0⟩
abbrev R.GYDEN_RTT : Nat := 0x9018
abbrev F.GYDEN_RTT_PS : Fld := ⟨0x9018, 31, 0⟩
abbrev R.GYDEN_DLY_TRIM : Nat := 0x901c
abbrev F.GYDEN_DLY_TRIM_PS : Fld := ⟨0x901c, 15, 0⟩
abbrev R.GYDEN_PRESENT : Nat := 0x9020
abbrev F.GYDEN_PRESENT_NODES : Fld := ⟨0x9020, 15, 0⟩
abbrev R.GYDEN_ARMED_NODES : Nat := 0x9024
abbrev F.GYDEN_ARMED_NODES_NODES : Fld := ⟨0x9024, 15, 0⟩
abbrev R.GYDEN_SYSTIME_LO : Nat := 0x9028
abbrev F.GYDEN_SYSTIME_LO_NS : Fld := ⟨0x9028, 31, 0⟩
abbrev R.GYDEN_SYSTIME_HI : Nat := 0x902c
abbrev F.GYDEN_SYSTIME_HI_NS : Fld := ⟨0x902c, 31, 0⟩
abbrev R.GYDEN_SYSTIME_FRAC : Nat := 0x9030
abbrev F.GYDEN_SYSTIME_FRAC_FRAC : Fld := ⟨0x9030, 15, 0⟩
abbrev R.GYDEN_SYNCERR : Nat := 0x9034
abbrev F.GYDEN_SYNCERR_PS : Fld := ⟨0x9034, 31, 0⟩
abbrev R.GYDEN_GEVCFG : Nat := 0x9038
abbrev F.GYDEN_GEVCFG_Q : Fld := ⟨0x9038, 15, 8⟩
abbrev F.GYDEN_GEVCFG_LMODE : Fld := ⟨0x9038, 7, 0⟩
abbrev R.GYDEN_GEVLSRC0 : Nat := 0x903c
abbrev F.GYDEN_GEVLSRC0_DRV0 : Fld := ⟨0x903c, 7, 7⟩
abbrev F.GYDEN_GEVLSRC0_DRV1 : Fld := ⟨0x903c, 15, 15⟩
abbrev F.GYDEN_GEVLSRC0_DRV2 : Fld := ⟨0x903c, 23, 23⟩
abbrev F.GYDEN_GEVLSRC0_DRV3 : Fld := ⟨0x903c, 31, 31⟩
abbrev F.GYDEN_GEVLSRC0_LVL0 : Fld := ⟨0x903c, 4, 0⟩
abbrev F.GYDEN_GEVLSRC0_LVL1 : Fld := ⟨0x903c, 12, 8⟩
abbrev F.GYDEN_GEVLSRC0_LVL2 : Fld := ⟨0x903c, 20, 16⟩
abbrev F.GYDEN_GEVLSRC0_LVL3 : Fld := ⟨0x903c, 28, 24⟩
abbrev R.GYDEN_GEVLSRC1 : Nat := 0x9040
abbrev F.GYDEN_GEVLSRC1_DRV0 : Fld := ⟨0x9040, 7, 7⟩
abbrev F.GYDEN_GEVLSRC1_DRV1 : Fld := ⟨0x9040, 15, 15⟩
abbrev F.GYDEN_GEVLSRC1_DRV2 : Fld := ⟨0x9040, 23, 23⟩
abbrev F.GYDEN_GEVLSRC1_DRV3 : Fld := ⟨0x9040, 31, 31⟩
abbrev F.GYDEN_GEVLSRC1_LVL0 : Fld := ⟨0x9040, 4, 0⟩
abbrev F.GYDEN_GEVLSRC1_LVL1 : Fld := ⟨0x9040, 12, 8⟩
abbrev F.GYDEN_GEVLSRC1_LVL2 : Fld := ⟨0x9040, 20, 16⟩
abbrev F.GYDEN_GEVLSRC1_LVL3 : Fld := ⟨0x9040, 28, 24⟩
abbrev R.GYDEN_GEVLVL : Nat := 0x9044
abbrev F.GYDEN_GEVLVL_DRIVEN : Fld := ⟨0x9044, 15, 8⟩
abbrev F.GYDEN_GEVLVL_APPLIED : Fld := ⟨0x9044, 7, 0⟩
abbrev R.GYDEN_GEV_TX : Nat := 0x9048
abbrev F.GYDEN_GEV_TX_COUNT : Fld := ⟨0x9048, 31, 0⟩
abbrev R.GYDEN_GEV_RX : Nat := 0x904c
abbrev F.GYDEN_GEV_RX_COUNT : Fld := ⟨0x904c, 31, 0⟩
abbrev R.GYDEN_GDAT_CTRL : Nat := 0x9050
abbrev F.GYDEN_GDAT_CTRL_SEND : Fld := ⟨0x9050, 8, 8⟩
abbrev F.GYDEN_GDAT_CTRL_DEST : Fld := ⟨0x9050, 4, 0⟩
abbrev R.GYDEN_GDAT_STAT : Nat := 0x9054
abbrev F.GYDEN_GDAT_STAT_RX_BCAST : Fld := ⟨0x9054, 12, 12⟩
abbrev F.GYDEN_GDAT_STAT_RX_SRC : Fld := ⟨0x9054, 11, 8⟩
abbrev F.GYDEN_GDAT_STAT_RX_VALID : Fld := ⟨0x9054, 1, 1⟩
abbrev F.GYDEN_GDAT_STAT_TX_BUSY : Fld := ⟨0x9054, 0, 0⟩
abbrev R.GYDEN_GDAT_TX0 : Nat := 0x9058
abbrev F.GYDEN_GDAT_TX0_DATA : Fld := ⟨0x9058, 31, 0⟩
abbrev R.GYDEN_GDAT_RX0 : Nat := 0x9068
abbrev F.GYDEN_GDAT_RX0_DATA : Fld := ⟨0x9068, 31, 0⟩
abbrev R.GYDEN_GDAT_CRCERR : Nat := 0x9078
abbrev F.GYDEN_GDAT_CRCERR_COUNT : Fld := ⟨0x9078, 31, 0⟩
abbrev R.GYDEN_GCLK_LOSS : Nat := 0x907c
abbrev F.GYDEN_GCLK_LOSS_COUNT : Fld := ⟨0x907c, 31, 0⟩
abbrev R.GYDEN_NODE_SEL : Nat := 0x9080
abbrev F.GYDEN_NODE_SEL_NODE : Fld := ⟨0x9080, 3, 0⟩
abbrev R.GYDEN_NODE_DLY : Nat := 0x9084
abbrev F.GYDEN_NODE_DLY_PS : Fld := ⟨0x9084, 31, 0⟩
abbrev R.GYDEN_NODE_STAT : Nat := 0x9088
abbrev F.GYDEN_NODE_STAT_MODE : Fld := ⟨0x9088, 11, 8⟩
abbrev F.GYDEN_NODE_STAT_FLAGS : Fld := ⟨0x9088, 3, 0⟩
abbrev R.GYDEN_TX_DROP : Nat := 0x908c
abbrev F.GYDEN_TX_DROP_COUNT : Fld := ⟨0x908c, 31, 0⟩
abbrev R.GYDEN_LASTEV_LO : Nat := 0x9090
abbrev F.GYDEN_LASTEV_LO_NS : Fld := ⟨0x9090, 31, 0⟩
abbrev R.GYDEN_LASTEV_HI : Nat := 0x9094
abbrev F.GYDEN_LASTEV_HI_NS : Fld := ⟨0x9094, 31, 0⟩
abbrev R.GYDEN_LASTEV_LINE : Nat := 0x9098
abbrev F.GYDEN_LASTEV_LINE_LEVEL : Fld := ⟨0x9098, 8, 8⟩
abbrev F.GYDEN_LASTEV_LINE_LINE : Fld := ⟨0x9098, 2, 0⟩
abbrev R.GYDEN_EPOCHS : Nat := 0x909c
abbrev F.GYDEN_EPOCHS_COUNT : Fld := ⟨0x909c, 31, 0⟩
/-! DRAMC (Table 12-10) -/
abbrev R.DRAMC_CTRL : Nat := 0xa000
abbrev F.DRAMC_CTRL_ERR_INJ : Fld := ⟨0xa000, 9, 8⟩
abbrev F.DRAMC_CTRL_OSC_EN : Fld := ⟨0xa000, 3, 3⟩
abbrev F.DRAMC_CTRL_RH_EN : Fld := ⟨0xa000, 2, 2⟩
abbrev F.DRAMC_CTRL_SCRUB_EN : Fld := ⟨0xa000, 1, 1⟩
abbrev F.DRAMC_CTRL_ECC_EN : Fld := ⟨0xa000, 0, 0⟩
abbrev R.DRAMC_STATUS : Nat := 0xa004
abbrev F.DRAMC_STATUS_TEMP_HIGH : Fld := ⟨0xa004, 10, 10⟩
abbrev F.DRAMC_STATUS_DRIFT : Fld := ⟨0xa004, 9, 9⟩
abbrev F.DRAMC_STATUS_BLACKOUT : Fld := ⟨0xa004, 8, 8⟩
abbrev F.DRAMC_STATUS_UNUSABLE : Fld := ⟨0xa004, 7, 7⟩
abbrev F.DRAMC_STATUS_STEPDOWN : Fld := ⟨0xa004, 6, 6⟩
abbrev F.DRAMC_STATUS_TRAIN_FAIL : Fld := ⟨0xa004, 5, 5⟩
abbrev F.DRAMC_STATUS_REF_INSERT : Fld := ⟨0xa004, 4, 4⟩
abbrev F.DRAMC_STATUS_RH_RT : Fld := ⟨0xa004, 3, 3⟩
abbrev F.DRAMC_STATUS_RH_RFM : Fld := ⟨0xa004, 2, 2⟩
abbrev F.DRAMC_STATUS_UE_FREEZE : Fld := ⟨0xa004, 1, 1⟩
abbrev F.DRAMC_STATUS_CE : Fld := ⟨0xa004, 0, 0⟩
abbrev R.DRAMC_STATE : Nat := 0xa008
abbrev F.DRAMC_STATE_BUSY : Fld := ⟨0xa008, 7, 7⟩
abbrev F.DRAMC_STATE_BANKMAP_PEND : Fld := ⟨0xa008, 6, 6⟩
abbrev F.DRAMC_STATE_DEGRADED : Fld := ⟨0xa008, 5, 5⟩
abbrev F.DRAMC_STATE_FSP : Fld := ⟨0xa008, 4, 4⟩
abbrev F.DRAMC_STATE_DSTATE : Fld := ⟨0xa008, 3, 0⟩
abbrev R.DRAMC_FREQ : Nat := 0xa00c
abbrev F.DRAMC_FREQ_MTS : Fld := ⟨0xa00c, 15, 0⟩
abbrev R.DRAMC_ECC_CE : Nat := 0xa010
abbrev F.DRAMC_ECC_CE_COUNT : Fld := ⟨0xa010, 31, 0⟩
abbrev R.DRAMC_ECC_CE_ADDR : Nat := 0xa014
abbrev F.DRAMC_ECC_CE_ADDR_BLOCK : Fld := ⟨0xa014, 28, 0⟩
abbrev R.DRAMC_SCRUB_CFG : Nat := 0xa018
abbrev F.DRAMC_SCRUB_CFG_HOURS : Fld := ⟨0xa018, 7, 0⟩
abbrev R.DRAMC_SCRUB_STAT : Nat := 0xa01c
abbrev F.DRAMC_SCRUB_STAT_PASSES : Fld := ⟨0xa01c, 31, 26⟩
abbrev F.DRAMC_SCRUB_STAT_RUN : Fld := ⟨0xa01c, 25, 0⟩
abbrev R.DRAMC_RH_CFG : Nat := 0xa020
abbrev F.DRAMC_RH_CFG_THRESH : Fld := ⟨0xa020, 15, 0⟩
abbrev R.DRAMC_RH_STAT : Nat := 0xa024
abbrev F.DRAMC_RH_STAT_TRACK : Fld := ⟨0xa024, 31, 16⟩
abbrev F.DRAMC_RH_STAT_RAA : Fld := ⟨0xa024, 15, 0⟩
abbrev R.DRAMC_RH_LAST : Nat := 0xa028
abbrev F.DRAMC_RH_LAST_REQ : Fld := ⟨0xa028, 31, 28⟩
abbrev F.DRAMC_RH_LAST_SUB : Fld := ⟨0xa028, 27, 24⟩
abbrev F.DRAMC_RH_LAST_CH : Fld := ⟨0xa028, 23, 23⟩
abbrev F.DRAMC_RH_LAST_RANK : Fld := ⟨0xa028, 22, 22⟩
abbrev F.DRAMC_RH_LAST_BANK : Fld := ⟨0xa028, 21, 18⟩
abbrev F.DRAMC_RH_LAST_ROW : Fld := ⟨0xa028, 17, 0⟩
abbrev R.DRAMC_RH_THROTTLE : Nat := 0xa02c
abbrev F.DRAMC_RH_THROTTLE_TOTAL : Fld := ⟨0xa02c, 31, 16⟩
abbrev F.DRAMC_RH_THROTTLE_ACTIVE : Fld := ⟨0xa02c, 15, 0⟩
abbrev R.DRAMC_REF_CFG : Nat := 0xa030
abbrev F.DRAMC_REF_CFG_MAXPOST : Fld := ⟨0xa030, 3, 0⟩
abbrev R.DRAMC_REF_STAT : Nat := 0xa034
abbrev F.DRAMC_REF_STAT_INSERTED : Fld := ⟨0xa034, 31, 16⟩
abbrev F.DRAMC_REF_STAT_OWED_MAX : Fld := ⟨0xa034, 3, 0⟩
abbrev R.DRAMC_LAT_RT0 : Nat := 0xa038
abbrev F.DRAMC_LAT_RT0_BURST : Fld := ⟨0xa038, 31, 16⟩
abbrev F.DRAMC_LAT_RT0_BEAT : Fld := ⟨0xa038, 15, 0⟩
abbrev R.DRAMC_LAT_RT1 : Nat := 0xa03c
abbrev F.DRAMC_LAT_RT1_BURST : Fld := ⟨0xa03c, 31, 16⟩
abbrev F.DRAMC_LAT_RT1_BEAT : Fld := ⟨0xa03c, 15, 0⟩
abbrev R.DRAMC_BANKMAP0_LO : Nat := 0xa040
abbrev F.DRAMC_BANKMAP0_LO_MASK : Fld := ⟨0xa040, 31, 0⟩
abbrev R.DRAMC_BANKMAP0_HI : Nat := 0xa044
abbrev F.DRAMC_BANKMAP0_HI_MASK : Fld := ⟨0xa044, 1, 0⟩
abbrev R.DRAMC_BANKMAP_STAT : Nat := 0xa070
abbrev F.DRAMC_BANKMAP_STAT_BAD : Fld := ⟨0xa070, 1, 1⟩
abbrev F.DRAMC_BANKMAP_STAT_PEND : Fld := ⟨0xa070, 0, 0⟩
abbrev R.DRAMC_FRZ_STAT : Nat := 0xa074
abbrev F.DRAMC_FRZ_STAT_WORDS : Fld := ⟨0xa074, 23, 16⟩
abbrev F.DRAMC_FRZ_STAT_REQ : Fld := ⟨0xa074, 15, 12⟩
abbrev F.DRAMC_FRZ_STAT_SUB : Fld := ⟨0xa074, 11, 8⟩
abbrev F.DRAMC_FRZ_STAT_CMD : Fld := ⟨0xa074, 3, 2⟩
abbrev F.DRAMC_FRZ_STAT_SIG : Fld := ⟨0xa074, 1, 1⟩
abbrev F.DRAMC_FRZ_STAT_VALID : Fld := ⟨0xa074, 0, 0⟩
abbrev R.DRAMC_FRZ_PADDR : Nat := 0xa078
abbrev F.DRAMC_FRZ_PADDR_BLOCK : Fld := ⟨0xa078, 28, 0⟩
abbrev R.DRAMC_FRZ_RADDR : Nat := 0xa07c
abbrev F.DRAMC_FRZ_RADDR_CH : Fld := ⟨0xa07c, 23, 23⟩
abbrev F.DRAMC_FRZ_RADDR_RANK : Fld := ⟨0xa07c, 22, 22⟩
abbrev F.DRAMC_FRZ_RADDR_BANK : Fld := ⟨0xa07c, 21, 18⟩
abbrev F.DRAMC_FRZ_RADDR_ROW : Fld := ⟨0xa07c, 17, 0⟩
abbrev R.DRAMC_FRZ_COL : Nat := 0xa080
abbrev F.DRAMC_FRZ_COL_SYND : Fld := ⟨0xa080, 23, 16⟩
abbrev F.DRAMC_FRZ_COL_WORD : Fld := ⟨0xa080, 15, 13⟩
abbrev F.DRAMC_FRZ_COL_COL : Fld := ⟨0xa080, 10, 0⟩
abbrev R.DRAMC_FRZ_SEG : Nat := 0xa084
abbrev F.DRAMC_FRZ_SEG_SYSAREA : Fld := ⟨0xa084, 17, 17⟩
abbrev F.DRAMC_FRZ_SEG_SEG_VALID : Fld := ⟨0xa084, 16, 16⟩
abbrev F.DRAMC_FRZ_SEG_SEG : Fld := ⟨0xa084, 15, 0⟩
abbrev R.DRAMC_FRZ_TIME_LO : Nat := 0xa088
abbrev F.DRAMC_FRZ_TIME_LO_NS : Fld := ⟨0xa088, 31, 0⟩
abbrev R.DRAMC_FRZ_TIME_HI : Nat := 0xa08c
abbrev F.DRAMC_FRZ_TIME_HI_NS : Fld := ⟨0xa08c, 31, 0⟩
abbrev R.DRAMC_TRAIN_CFG : Nat := 0xa090
abbrev F.DRAMC_TRAIN_CFG_MIN_EYE : Fld := ⟨0xa090, 7, 0⟩
abbrev R.DRAMC_TRAIN_STAT : Nat := 0xa094
abbrev F.DRAMC_TRAIN_STAT_FSP : Fld := ⟨0xa094, 15, 15⟩
abbrev F.DRAMC_TRAIN_STAT_RANK : Fld := ⟨0xa094, 14, 14⟩
abbrev F.DRAMC_TRAIN_STAT_CH : Fld := ⟨0xa094, 13, 13⟩
abbrev F.DRAMC_TRAIN_STAT_BIT : Fld := ⟨0xa094, 12, 8⟩
abbrev F.DRAMC_TRAIN_STAT_STEP : Fld := ⟨0xa094, 7, 4⟩
abbrev F.DRAMC_TRAIN_STAT_RESULT : Fld := ⟨0xa094, 3, 0⟩
abbrev R.DRAMC_TRAIN_SEL : Nat := 0xa098
abbrev F.DRAMC_TRAIN_SEL_FSP : Fld := ⟨0xa098, 7, 7⟩
abbrev F.DRAMC_TRAIN_SEL_RANK : Fld := ⟨0xa098, 6, 6⟩
abbrev F.DRAMC_TRAIN_SEL_CH : Fld := ⟨0xa098, 5, 5⟩
abbrev F.DRAMC_TRAIN_SEL_BIT : Fld := ⟨0xa098, 4, 0⟩
abbrev R.DRAMC_EYE_RD : Nat := 0xa09c
abbrev F.DRAMC_EYE_RD_TAP : Fld := ⟨0xa09c, 31, 16⟩
abbrev F.DRAMC_EYE_RD_PS : Fld := ⟨0xa09c, 15, 0⟩
abbrev R.DRAMC_EYE_WR : Nat := 0xa0a0
abbrev F.DRAMC_EYE_WR_TAP : Fld := ⟨0xa0a0, 31, 16⟩
abbrev F.DRAMC_EYE_WR_PS : Fld := ⟨0xa0a0, 15, 0⟩
abbrev R.DRAMC_EYE_CA : Nat := 0xa0a4
abbrev F.DRAMC_EYE_CA_TAP : Fld := ⟨0xa0a4, 31, 16⟩
abbrev F.DRAMC_EYE_CA_PS : Fld := ⟨0xa0a4, 15, 0⟩
abbrev R.DRAMC_VREF : Nat := 0xa0a8
abbrev F.DRAMC_VREF_CA_MARGIN : Fld := ⟨0xa0a8, 31, 24⟩
abbrev F.DRAMC_VREF_CA_CODE : Fld := ⟨0xa0a8, 23, 16⟩
abbrev F.DRAMC_VREF_DQ_MARGIN : Fld := ⟨0xa0a8, 15, 8⟩
abbrev F.DRAMC_VREF_DQ_CODE : Fld := ⟨0xa0a8, 7, 0⟩
abbrev R.DRAMC_WCK_STAT : Nat := 0xa0ac
abbrev F.DRAMC_WCK_STAT_WL_TAP : Fld := ⟨0xa0ac, 13, 8⟩
abbrev F.DRAMC_WCK_STAT_WCK_TAP : Fld := ⟨0xa0ac, 5, 0⟩
abbrev R.DRAMC_OSC_CFG : Nat := 0xa0b0
abbrev F.DRAMC_OSC_CFG_LIMIT : Fld := ⟨0xa0b0, 23, 16⟩
abbrev F.DRAMC_OSC_CFG_INTERVAL : Fld := ⟨0xa0b0, 15, 0⟩
abbrev R.DRAMC_OSC_STAT : Nat := 0xa0b4
abbrev F.DRAMC_OSC_STAT_DRIFT : Fld := ⟨0xa0b4, 31, 16⟩
abbrev F.DRAMC_OSC_STAT_COUNT : Fld := ⟨0xa0b4, 15, 0⟩
abbrev R.DRAMC_DRIFT_ADJ : Nat := 0xa0b8
abbrev F.DRAMC_DRIFT_ADJ_COUNT : Fld := ⟨0xa0b8, 31, 0⟩
abbrev R.DRAMC_TRAIN_COUNT : Nat := 0xa0bc
abbrev F.DRAMC_TRAIN_COUNT_FAILS : Fld := ⟨0xa0bc, 31, 16⟩
abbrev F.DRAMC_TRAIN_COUNT_RUNS : Fld := ⟨0xa0bc, 15, 0⟩
abbrev R.DRAMC_FSP0_TIM0 : Nat := 0xa0c0
abbrev F.DRAMC_FSP0_TIM0_TRRD_TRAS_TRP_TRCD : Fld := ⟨0xa0c0, 31, 0⟩
abbrev R.DRAMC_NRT_CAP : Nat := 0xa0e0
abbrev F.DRAMC_NRT_CAP_CMP : Fld := ⟨0xa0e0, 15, 8⟩
abbrev F.DRAMC_NRT_CAP_LIFT : Fld := ⟨0xa0e0, 7, 0⟩
abbrev R.DRAMC_BW_RT0 : Nat := 0xa0e4
abbrev F.DRAMC_BW_RT0_MBPS : Fld := ⟨0xa0e4, 15, 0⟩
abbrev R.DRAMC_BW_RT1 : Nat := 0xa0e8
abbrev F.DRAMC_BW_RT1_MBPS : Fld := ⟨0xa0e8, 15, 0⟩
abbrev R.DRAMC_BW_NRT : Nat := 0xa0ec
abbrev F.DRAMC_BW_NRT_MBPS : Fld := ⟨0xa0ec, 15, 0⟩
abbrev R.DRAMC_UTIL : Nat := 0xa0f0
abbrev F.DRAMC_UTIL_CH1 : Fld := ⟨0xa0f0, 15, 8⟩
abbrev F.DRAMC_UTIL_CH0 : Fld := ⟨0xa0f0, 7, 0⟩
abbrev R.DRAMC_TEMP : Nat := 0xa0f4
abbrev F.DRAMC_TEMP_MR4_q0 : Fld := ⟨0xa0f4, 3, 0⟩
abbrev F.DRAMC_TEMP_MR4_q1 : Fld := ⟨0xa0f4, 7, 4⟩
abbrev F.DRAMC_TEMP_MR4_q2 : Fld := ⟨0xa0f4, 11, 8⟩
abbrev F.DRAMC_TEMP_MR4_q3 : Fld := ⟨0xa0f4, 15, 12⟩
abbrev F.DRAMC_TEMP_MR4_q4 : Fld := ⟨0xa0f4, 19, 16⟩
abbrev F.DRAMC_TEMP_MR4_q5 : Fld := ⟨0xa0f4, 23, 20⟩
abbrev F.DRAMC_TEMP_MR4_q6 : Fld := ⟨0xa0f4, 27, 24⟩
abbrev F.DRAMC_TEMP_MR4_q7 : Fld := ⟨0xa0f4, 31, 28⟩
abbrev R.DRAMC_ZQ_STAT : Nat := 0xa0f8
abbrev F.DRAMC_ZQ_STAT_COUNT : Fld := ⟨0xa0f8, 31, 0⟩
abbrev R.DRAMC_RESUME_STAT : Nat := 0xa0fc
abbrev F.DRAMC_RESUME_STAT_RESULT : Fld := ⟨0xa0fc, 17, 16⟩
abbrev F.DRAMC_RESUME_STAT_WORDS : Fld := ⟨0xa0fc, 15, 0⟩
abbrev R.DRAMC_ACT_WIN0 : Nat := 0xa100
abbrev F.DRAMC_ACT_WIN0_COUNT : Fld := ⟨0xa100, 31, 0⟩
abbrev R.DRAMC_RFM_CNT0 : Nat := 0xa104
abbrev F.DRAMC_RFM_CNT0_COUNT : Fld := ⟨0xa104, 31, 0⟩
abbrev R.DRAMC_REF_INS0 : Nat := 0xa108
abbrev F.DRAMC_REF_INS0_COUNT : Fld := ⟨0xa108, 31, 0⟩
abbrev R.DRAMC_CE_CNT0 : Nat := 0xa10c
abbrev F.DRAMC_CE_CNT0_COUNT : Fld := ⟨0xa10c, 31, 0⟩
/-! MMU (Table 05-9) -/
abbrev R.MMU_CTRL : Nat := 0xb000
abbrev F.MMU_CTRL_CMP_RATE : Fld := ⟨0xb000, 15, 8⟩
abbrev F.MMU_CTRL_WIN_AINC : Fld := ⟨0xb000, 1, 1⟩
abbrev F.MMU_CTRL_LC_EN : Fld := ⟨0xb000, 0, 0⟩
abbrev R.MMU_STATUS : Nat := 0xb004
abbrev F.MMU_STATUS_LC_ERR : Fld := ⟨0xb004, 7, 7⟩
abbrev F.MMU_STATUS_LC_FULL : Fld := ⟨0xb004, 6, 6⟩
abbrev F.MMU_STATUS_RETIRE_FULL : Fld := ⟨0xb004, 5, 5⟩
abbrev F.MMU_STATUS_RETIRE_DEFER : Fld := ⟨0xb004, 4, 4⟩
abbrev F.MMU_STATUS_WIN_UNMAPPED : Fld := ⟨0xb004, 3, 3⟩
abbrev F.MMU_STATUS_WIN_REFUSED : Fld := ⟨0xb004, 2, 2⟩
abbrev F.MMU_STATUS_UNDERRUN : Fld := ⟨0xb004, 1, 1⟩
abbrev F.MMU_STATUS_LIFT_FAULT : Fld := ⟨0xb004, 0, 0⟩
abbrev R.MMU_FREE_PAGES : Nat := 0xb008
abbrev F.MMU_FREE_PAGES_COUNT : Fld := ⟨0xb008, 21, 0⟩
abbrev R.MMU_MAPPED_PAGES : Nat := 0xb00c
abbrev F.MMU_MAPPED_PAGES_COUNT : Fld := ⟨0xb00c, 21, 0⟩
abbrev R.MMU_PINNED_PAGES : Nat := 0xb010
abbrev F.MMU_PINNED_PAGES_COUNT : Fld := ⟨0xb010, 21, 0⟩
abbrev R.MMU_RETIRED_PAGES : Nat := 0xb014
abbrev F.MMU_RETIRED_PAGES_COUNT : Fld := ⟨0xb014, 21, 0⟩
abbrev R.MMU_TLB_MISS : Nat := 0xb018
abbrev F.MMU_TLB_MISS_MISSES : Fld := ⟨0xb018, 31, 0⟩
abbrev R.MMU_WALK_MAX : Nat := 0xb01c
abbrev F.MMU_WALK_MAX_NS : Fld := ⟨0xb01c, 15, 0⟩
abbrev R.MMU_DESC_SEL : Nat := 0xb020
abbrev F.MMU_DESC_SEL_ID : Fld := ⟨0xb020, 15, 0⟩
abbrev R.MMU_DESC_STATE : Nat := 0xb024
abbrev F.MMU_DESC_STATE_LCBLK : Fld := ⟨0xb024, 30, 24⟩
abbrev F.MMU_DESC_STATE_PIN : Fld := ⟨0xb024, 20, 16⟩
abbrev F.MMU_DESC_STATE_LC : Fld := ⟨0xb024, 9, 9⟩
abbrev F.MMU_DESC_STATE_OPENW : Fld := ⟨0xb024, 8, 8⟩
abbrev F.MMU_DESC_STATE_STATE : Fld := ⟨0xb024, 3, 0⟩
abbrev R.MMU_DESC_FORMAT : Nat := 0xb028
abbrev F.MMU_DESC_FORMAT_FB : Fld := ⟨0xb028, 31, 23⟩
abbrev F.MMU_DESC_FORMAT_NL : Fld := ⟨0xb028, 19, 16⟩
abbrev F.MMU_DESC_FORMAT_NA : Fld := ⟨0xb028, 14, 8⟩
abbrev F.MMU_DESC_FORMAT_SFMT : Fld := ⟨0xb028, 1, 0⟩
abbrev R.MMU_DESC_LEN : Nat := 0xb02c
abbrev F.MMU_DESC_LEN_FRAMES : Fld := ⟨0xb02c, 31, 0⟩
abbrev R.MMU_DESC_VBASE : Nat := 0xb030
abbrev F.MMU_DESC_VBASE_VPN : Fld := ⟨0xb030, 21, 0⟩
abbrev R.MMU_DESC_INFO : Nat := 0xb034
abbrev F.MMU_DESC_INFO_IDX : Fld := ⟨0xb034, 23, 16⟩
abbrev F.MMU_DESC_INFO_RING : Fld := ⟨0xb034, 15, 0⟩
abbrev R.MMU_PTE_SEL : Nat := 0xb038
abbrev F.MMU_PTE_SEL_VPN : Fld := ⟨0xb038, 21, 0⟩
abbrev R.MMU_PTE_LO : Nat := 0xb03c
abbrev F.MMU_PTE_LO_PPN : Fld := ⟨0xb03c, 31, 16⟩
abbrev F.MMU_PTE_LO_PIN : Fld := ⟨0xb03c, 12, 8⟩
abbrev F.MMU_PTE_LO_LC : Fld := ⟨0xb03c, 2, 2⟩
abbrev F.MMU_PTE_LO_MOVE : Fld := ⟨0xb03c, 1, 1⟩
abbrev F.MMU_PTE_LO_V : Fld := ⟨0xb03c, 0, 0⟩
abbrev R.MMU_PTE_HI : Nat := 0xb040
abbrev F.MMU_PTE_HI_SEG : Fld := ⟨0xb040, 21, 6⟩
abbrev F.MMU_PTE_HI_PPN : Fld := ⟨0xb040, 5, 0⟩
abbrev R.MMU_LC_STAT : Nat := 0xb044
abbrev F.MMU_LC_STAT_SEGS : Fld := ⟨0xb044, 25, 16⟩
abbrev F.MMU_LC_STAT_FREE : Fld := ⟨0xb044, 9, 0⟩
abbrev R.MMU_CMP_STAT : Nat := 0xb048
abbrev F.MMU_CMP_STAT_SEG : Fld := ⟨0xb048, 31, 16⟩
abbrev F.MMU_CMP_STAT_RETIRE : Fld := ⟨0xb048, 1, 1⟩
abbrev F.MMU_CMP_STAT_BUSY : Fld := ⟨0xb048, 0, 0⟩
abbrev R.MMU_CMP_MOVED : Nat := 0xb04c
abbrev F.MMU_CMP_MOVED_PAGES : Fld := ⟨0xb04c, 31, 0⟩
abbrev R.MMU_WIN_SEG : Nat := 0xb050
abbrev F.MMU_WIN_SEG_ID : Fld := ⟨0xb050, 15, 0⟩
abbrev R.MMU_WIN_OFS : Nat := 0xb054
abbrev F.MMU_WIN_OFS_OFS : Fld := ⟨0xb054, 31, 2⟩
abbrev R.MMU_WIN_DATA : Nat := 0xb058
abbrev F.MMU_WIN_DATA_DATA : Fld := ⟨0xb058, 31, 0⟩
abbrev R.MMU_LIFT_BUSY : Nat := 0xb05c
abbrev F.MMU_LIFT_BUSY_HELD : Fld := ⟨0xb05c, 15, 8⟩
abbrev F.MMU_LIFT_BUSY_BUSY : Fld := ⟨0xb05c, 7, 0⟩
abbrev R.MMU_LIFT_SEL : Nat := 0xb060
abbrev F.MMU_LIFT_SEL_CH : Fld := ⟨0xb060, 2, 0⟩
abbrev R.MMU_LIFT_STAT : Nat := 0xb064
abbrev F.MMU_LIFT_STAT_SEG : Fld := ⟨0xb064, 31, 16⟩
abbrev F.MMU_LIFT_STAT_LSTAT : Fld := ⟨0xb064, 15, 8⟩
abbrev F.MMU_LIFT_STAT_STATE : Fld := ⟨0xb064, 1, 0⟩
abbrev R.MMU_LIFT_FAULT : Nat := 0xb068
abbrev F.MMU_LIFT_FAULT_OFS : Fld := ⟨0xb068, 31, 0⟩
abbrev R.MMU_LIFT_DONE : Nat := 0xb06c
abbrev F.MMU_LIFT_DONE_COUNT : Fld := ⟨0xb06c, 31, 0⟩
abbrev R.MMU_RING_SEL : Nat := 0xb070
abbrev F.MMU_RING_SEL_ID : Fld := ⟨0xb070, 15, 0⟩
abbrev R.MMU_RING_STAT : Nat := 0xb074
abbrev F.MMU_RING_STAT_UCOUNT : Fld := ⟨0xb074, 31, 16⟩
abbrev F.MMU_RING_STAT_FILLED : Fld := ⟨0xb074, 15, 8⟩
abbrev F.MMU_RING_STAT_NEXT : Fld := ⟨0xb074, 7, 0⟩
abbrev R.MMU_RING_UFRAME_LO : Nat := 0xb078
abbrev F.MMU_RING_UFRAME_LO_FRAME : Fld := ⟨0xb078, 31, 0⟩
abbrev R.MMU_RING_UFRAME_HI : Nat := 0xb07c
abbrev F.MMU_RING_UFRAME_HI_FRAME : Fld := ⟨0xb07c, 15, 0⟩
/-! SEQ (Table 06-9) -/
abbrev R.SEQ_CTRL : Nat := 0
abbrev F.SEQ_CTRL_START_UG : Fld := ⟨0, 15, 12⟩
abbrev F.SEQ_CTRL_START_UGEN : Fld := ⟨0, 8, 8⟩
abbrev F.SEQ_CTRL_STOP_MODE : Fld := ⟨0, 5, 4⟩
abbrev F.SEQ_CTRL_UPOL : Fld := ⟨0, 1, 0⟩
abbrev R.SEQ_STATE : Nat := 0x4
abbrev F.SEQ_STATE_CAUSE : Fld := ⟨0x4, 18, 16⟩
abbrev F.SEQ_STATE_LCACHE : Fld := ⟨0x4, 14, 14⟩
abbrev F.SEQ_STATE_LATE_PEND : Fld := ⟨0x4, 13, 13⟩
abbrev F.SEQ_STATE_GLATCH : Fld := ⟨0x4, 12, 12⟩
abbrev F.SEQ_STATE_JLATCH : Fld := ⟨0x4, 11, 8⟩
abbrev F.SEQ_STATE_REPLAY : Fld := ⟨0x4, 7, 7⟩
abbrev F.SEQ_STATE_UHOLD : Fld := ⟨0x4, 6, 6⟩
abbrev F.SEQ_STATE_IDLEP : Fld := ⟨0x4, 5, 5⟩
abbrev F.SEQ_STATE_GWAIT : Fld := ⟨0x4, 4, 4⟩
abbrev F.SEQ_STATE_SSTATE : Fld := ⟨0x4, 3, 0⟩
abbrev R.SEQ_STATUS : Nat := 0x8
abbrev F.SEQ_STATUS_CFG_IGNORED : Fld := ⟨0x8, 10, 10⟩
abbrev F.SEQ_STATUS_ENDED : Fld := ⟨0x8, 9, 9⟩
abbrev F.SEQ_STATUS_UNDERRUN : Fld := ⟨0x8, 8, 8⟩
abbrev F.SEQ_STATUS_POVR : Fld := ⟨0x8, 7, 7⟩
abbrev F.SEQ_STATUS_SOVR : Fld := ⟨0x8, 6, 6⟩
abbrev F.SEQ_STATUS_GOVR : Fld := ⟨0x8, 5, 5⟩
abbrev F.SEQ_STATUS_GATE_DROP : Fld := ⟨0x8, 4, 4⟩
abbrev F.SEQ_STATUS_JOVR : Fld := ⟨0x8, 3, 3⟩
abbrev F.SEQ_STATUS_JUMP_IGNORED : Fld := ⟨0x8, 2, 2⟩
abbrev F.SEQ_STATUS_JUMP_LOST : Fld := ⟨0x8, 1, 1⟩
abbrev F.SEQ_STATUS_JUMP_LATE : Fld := ⟨0x8, 0, 0⟩
abbrev R.SEQ_WBASE : Nat := 0xc
abbrev F.SEQ_WBASE_STEP : Fld := ⟨0xc, 19, 0⟩
abbrev R.SEQ_WLIMIT : Nat := 0x10
abbrev F.SEQ_WLIMIT_STEP : Fld := ⟨0x10, 19, 0⟩
abbrev R.SEQ_START : Nat := 0x14
abbrev F.SEQ_START_STEP : Fld := ⟨0x14, 19, 0⟩
abbrev R.SEQ_CUR : Nat := 0x18
abbrev F.SEQ_CUR_VALID : Fld := ⟨0x18, 31, 31⟩
abbrev F.SEQ_CUR_STEP : Fld := ⟨0x18, 19, 0⟩
abbrev R.SEQ_PASS : Nat := 0x1c
abbrev F.SEQ_PASS_COUNT : Fld := ⟨0x1c, 19, 0⟩
abbrev R.SEQ_FRAME_LO : Nat := 0x20
abbrev F.SEQ_FRAME_LO_FRAME : Fld := ⟨0x20, 31, 0⟩
abbrev R.SEQ_FRAME_HI : Nat := 0x24
abbrev F.SEQ_FRAME_HI_FRAME : Fld := ⟨0x24, 15, 0⟩
abbrev R.SEQ_PSTART_LO : Nat := 0x28
abbrev F.SEQ_PSTART_LO_S : Fld := ⟨0x28, 31, 0⟩
abbrev R.SEQ_PSTART_HI : Nat := 0x2c
abbrev F.SEQ_PSTART_HI_S : Fld := ⟨0x2c, 15, 0⟩
abbrev R.SEQ_IDLE : Nat := 0x30
abbrev F.SEQ_IDLE_SEG : Fld := ⟨0x30, 15, 0⟩
abbrev R.SEQ_GATECFG : Nat := 0x34
abbrev F.SEQ_GATECFG_LVL : Fld := ⟨0x34, 4, 0⟩
abbrev R.SEQ_EVDLY : Nat := 0x38
abbrev F.SEQ_EVDLY_FRAMES : Fld := ⟨0x38, 7, 0⟩
abbrev R.SEQ_LATE : Nat := 0x3c
abbrev F.SEQ_LATE_VALID : Fld := ⟨0x3c, 31, 31⟩
abbrev F.SEQ_LATE_IN : Fld := ⟨0x3c, 21, 20⟩
abbrev F.SEQ_LATE_STEP : Fld := ⟨0x3c, 19, 0⟩
abbrev R.SEQ_LOST : Nat := 0x40
abbrev F.SEQ_LOST_STEP : Fld := ⟨0x40, 23, 4⟩
abbrev F.SEQ_LOST_IN : Fld := ⟨0x40, 3, 0⟩
abbrev R.SEQ_RATE : Nat := 0x44
abbrev F.SEQ_RATE_RLEAD : Fld := ⟨0x44, 31, 20⟩
abbrev F.SEQ_RATE_LANE : Fld := ⟨0x44, 17, 17⟩
abbrev F.SEQ_RATE_DIV : Fld := ⟨0x44, 16, 0⟩
abbrev R.SEQ_JUMPS : Nat := 0x48
abbrev F.SEQ_JUMPS_LATE : Fld := ⟨0x48, 31, 16⟩
abbrev F.SEQ_JUMPS_TAKEN : Fld := ⟨0x48, 15, 0⟩
abbrev R.SEQ_GWAIT : Nat := 0x4c
abbrev F.SEQ_GWAIT_FRAMES : Fld := ⟨0x4c, 31, 0⟩
/-! TRACK (Table 09-13) -/
abbrev R.TRACK_CTRL : Nat := 0
abbrev F.TRACK_CTRL_FORCE : Fld := ⟨0, 0, 0⟩
abbrev R.TRACK_STATE : Nat := 0x4
abbrev F.TRACK_STATE_OUT : Fld := ⟨0x4, 15, 15⟩
abbrev F.TRACK_STATE_POSTP : Fld := ⟨0x4, 14, 14⟩
abbrev F.TRACK_STATE_LOADED : Fld := ⟨0x4, 13, 13⟩
abbrev F.TRACK_STATE_CONFIGURED : Fld := ⟨0x4, 12, 12⟩
abbrev F.TRACK_STATE_CUR : Fld := ⟨0x4, 11, 8⟩
abbrev F.TRACK_STATE_ESTATE : Fld := ⟨0x4, 2, 0⟩
abbrev R.TRACK_STATUS : Nat := 0x8
abbrev F.TRACK_STATUS_DRAM : Fld := ⟨0x8, 10, 10⟩
abbrev F.TRACK_STATUS_UNTRACED : Fld := ⟨0x8, 9, 9⟩
abbrev F.TRACK_STATUS_MISS : Fld := ⟨0x8, 8, 8⟩
abbrev F.TRACK_STATUS_RED_WRAP : Fld := ⟨0x8, 7, 7⟩
abbrev F.TRACK_STATUS_UP_OVF : Fld := ⟨0x8, 6, 6⟩
abbrev F.TRACK_STATUS_DONE : Fld := ⟨0x8, 5, 5⟩
abbrev F.TRACK_STATUS_FOVR : Fld := ⟨0x8, 4, 4⟩
abbrev F.TRACK_STATUS_AOVR : Fld := ⟨0x8, 3, 3⟩
abbrev F.TRACK_STATUS_TRIG_OVR : Fld := ⟨0x8, 1, 1⟩
abbrev F.TRACK_STATUS_TRIG : Fld := ⟨0x8, 0, 0⟩
abbrev R.TRACK_UNITS : Nat := 0xc
abbrev F.TRACK_UNITS_MASK : Fld := ⟨0xc, 31, 0⟩
abbrev R.TRACK_SEGS : Nat := 0x10
abbrev F.TRACK_SEGS_REDSEG : Fld := ⟨0x10, 31, 16⟩
abbrev F.TRACK_SEGS_CAPSEG : Fld := ⟨0x10, 15, 0⟩
abbrev R.TRACK_PRE : Nat := 0x14
abbrev F.TRACK_PRE_COUNT : Fld := ⟨0x14, 23, 0⟩
abbrev R.TRACK_POST : Nat := 0x18
abbrev F.TRACK_POST_COUNT : Fld := ⟨0x18, 31, 0⟩
abbrev R.TRACK_RECORDS : Nat := 0x1c
abbrev F.TRACK_RECORDS_COUNT : Fld := ⟨0x1c, 16, 0⟩
abbrev R.TRACK_RECDONE : Nat := 0x20
abbrev F.TRACK_RECDONE_COUNT : Fld := ⟨0x20, 16, 0⟩
abbrev R.TRACK_TRIGS : Nat := 0x24
abbrev F.TRACK_TRIGS_COUNT : Fld := ⟨0x24, 31, 0⟩
abbrev R.TRACK_TSKIP : Nat := 0x28
abbrev F.TRACK_TSKIP_COUNT : Fld := ⟨0x28, 31, 0⟩
abbrev R.TRACK_TC0 : Nat := 0x2c
abbrev F.TRACK_TC0_COUNT : Fld := ⟨0x2c, 31, 0⟩
abbrev R.TRACK_TT0 : Nat := 0x3c
abbrev F.TRACK_TT0_TICKS : Fld := ⟨0x3c, 31, 0⟩
abbrev R.TRACK_TICK_LO : Nat := 0x44
abbrev F.TRACK_TICK_LO_TICK : Fld := ⟨0x44, 31, 0⟩
abbrev R.TRACK_TICK_HI : Nat := 0x48
abbrev F.TRACK_TICK_HI_TICK : Fld := ⟨0x48, 15, 0⟩
abbrev R.TRACK_TREC_TIME_LO : Nat := 0x4c
abbrev F.TRACK_TREC_TIME_LO_SYST : Fld := ⟨0x4c, 31, 0⟩
abbrev R.TRACK_TREC_TIME_HI : Nat := 0x50
abbrev F.TRACK_TREC_TIME_HI_SYST : Fld := ⟨0x50, 31, 0⟩
abbrev R.TRACK_TREC_FRAC : Nat := 0x54
abbrev F.TRACK_TREC_FRAC_FRAC : Fld := ⟨0x54, 15, 0⟩
abbrev R.TRACK_TREC_FRAME_LO : Nat := 0x58
abbrev F.TRACK_TREC_FRAME_LO_FRAME : Fld := ⟨0x58, 31, 0⟩
abbrev R.TRACK_TREC_FRAME_HI : Nat := 0x5c
abbrev F.TRACK_TREC_FRAME_HI_FVALID : Fld := ⟨0x5c, 31, 31⟩
abbrev F.TRACK_TREC_FRAME_HI_FRAME : Fld := ⟨0x5c, 15, 0⟩
abbrev R.TRACK_TREC_FOFS : Nat := 0x60
abbrev F.TRACK_TREC_FOFS_NS : Fld := ⟨0x60, 31, 0⟩
abbrev R.TRACK_TREC_PATH : Nat := 0x64
abbrev F.TRACK_TREC_PATH_PATH : Fld := ⟨0x64, 31, 0⟩
abbrev R.TRACK_TREC_MASK : Nat := 0x68
abbrev F.TRACK_TREC_MASK_MASK : Fld := ⟨0x68, 31, 0⟩
abbrev R.TRACK_RED_WPTR : Nat := 0x6c
abbrev F.TRACK_RED_WPTR_OFS : Fld := ⟨0x6c, 31, 0⟩
abbrev R.TRACK_RED_WRAPS : Nat := 0x70
abbrev F.TRACK_RED_WRAPS_COUNT : Fld := ⟨0x70, 31, 0⟩
abbrev R.TRACK_UP_WPTR : Nat := 0x74
abbrev F.TRACK_UP_WPTR_OFS : Fld := ⟨0x74, 31, 0⟩
abbrev R.TRACK_UP_RPTR : Nat := 0x78
abbrev F.TRACK_UP_RPTR_OFS : Fld := ⟨0x78, 31, 0⟩
abbrev R.TRACK_CFG : Nat := 0x7c
abbrev F.TRACK_CFG_EVARM : Fld := ⟨0x7c, 20, 20⟩
abbrev F.TRACK_CFG_RED_EN : Fld := ⟨0x7c, 17, 17⟩
abbrev F.TRACK_CFG_UP : Fld := ⟨0x7c, 16, 16⟩
abbrev F.TRACK_CFG_FGRP_EN : Fld := ⟨0x7c, 12, 12⟩
abbrev F.TRACK_CFG_FGRP : Fld := ⟨0x7c, 11, 8⟩
abbrev F.TRACK_CFG_ODR : Fld := ⟨0x7c, 3, 0⟩
/-! P (R58, Table 02-10) -/
abbrev R.P_CTRL : Nat := 0
abbrev F.P_CTRL_UG : Fld := ⟨0, 27, 24⟩
abbrev F.P_CTRL_ALM_EN : Fld := ⟨0, 15, 12⟩
abbrev F.P_CTRL_INTERP : Fld := ⟨0, 9, 8⟩
abbrev F.P_CTRL_TEMPCO : Fld := ⟨0, 4, 4⟩
abbrev F.P_CTRL_SENSE : Fld := ⟨0, 3, 3⟩
abbrev R.P_RANGE : Nat := 0x4
abbrev F.P_RANGE_ACT : Fld := ⟨0x4, 19, 16⟩
abbrev F.P_RANGE_SEL : Fld := ⟨0x4, 3, 0⟩
abbrev R.P_OFFSET : Nat := 0x8
abbrev F.P_OFFSET_OFFS : Fld := ⟨0x8, 27, 0⟩
abbrev R.P_STATE : Nat := 0xc
abbrev F.P_STATE_GROUP : Fld := ⟨0xc, 23, 20⟩
abbrev F.P_STATE_IN_GROUP : Fld := ⟨0xc, 19, 19⟩
abbrev F.P_STATE_CBANK : Fld := ⟨0xc, 18, 18⟩
abbrev F.P_STATE_GRANT : Fld := ⟨0xc, 16, 16⟩
abbrev F.P_STATE_SP_TARGET : Fld := ⟨0xc, 7, 4⟩
abbrev F.P_STATE_OSTATE : Fld := ⟨0xc, 3, 0⟩
abbrev R.P_STATUS : Nat := 0x10
abbrev F.P_STATUS_TEMP_STALE : Fld := ⟨0x10, 8, 8⟩
abbrev F.P_STATUS_NVM_REST_BAD : Fld := ⟨0x10, 7, 7⟩
abbrev F.P_STATUS_CFG_IGNORED : Fld := ⟨0x10, 6, 6⟩
abbrev F.P_STATUS_RANGE_REFUSED : Fld := ⟨0x10, 5, 5⟩
abbrev F.P_STATUS_EXC_RANGE : Fld := ⟨0x10, 4, 4⟩
abbrev F.P_STATUS_SENSE_OPEN : Fld := ⟨0x10, 3, 3⟩
abbrev F.P_STATUS_MOD_OVL : Fld := ⟨0x10, 2, 2⟩
abbrev F.P_STATUS_COMPLIANCE : Fld := ⟨0x10, 1, 1⟩
abbrev F.P_STATUS_CLIP : Fld := ⟨0x10, 0, 0⟩
abbrev R.P_SLEW : Nat := 0x14
abbrev F.P_SLEW_EXP : Fld := ⟨0x14, 15, 12⟩
abbrev F.P_SLEW_MANT : Fld := ⟨0x14, 11, 0⟩
abbrev R.P_LAT_FRAMES : Nat := 0x18
abbrev F.P_LAT_FRAMES_FRAMES : Fld := ⟨0x18, 15, 0⟩
abbrev R.P_LAT_NS : Nat := 0x1c
abbrev F.P_LAT_NS_NS : Fld := ⟨0x1c, 31, 0⟩
abbrev R.P_SYN : Nat := 0x20
abbrev F.P_SYN_NDIST : Fld := ⟨0x20, 27, 27⟩
abbrev F.P_SYN_WAVE : Fld := ⟨0x20, 26, 24⟩
abbrev F.P_SYN_AMPL : Fld := ⟨0x20, 23, 0⟩
abbrev R.P_SYN_FREQ_LO : Nat := 0x24
abbrev F.P_SYN_FREQ_LO_INC : Fld := ⟨0x24, 31, 0⟩
abbrev R.P_SYN_FREQ_HI : Nat := 0x28
abbrev F.P_SYN_FREQ_HI_INC : Fld := ⟨0x28, 15, 0⟩
abbrev R.P_SYN_PHASE : Nat := 0x2c
abbrev F.P_SYN_PHASE_POFS : Fld := ⟨0x2c, 31, 0⟩
abbrev R.P_BRIDGE : Nat := 0x30
abbrev F.P_BRIDGE_LEAK : Fld := ⟨0x30, 13, 12⟩
abbrev F.P_BRIDGE_BFAULT : Fld := ⟨0x30, 10, 8⟩
abbrev F.P_BRIDGE_RSENSE : Fld := ⟨0x30, 7, 4⟩
abbrev F.P_BRIDGE_ZSRC : Fld := ⟨0x30, 1, 0⟩
abbrev R.P_EXC : Nat := 0x34
abbrev F.P_EXC_QUAD : Fld := ⟨0x34, 31, 16⟩
abbrev F.P_EXC_VEXC : Fld := ⟨0x34, 15, 0⟩
abbrev R.P_SKEW : Nat := 0x38
abbrev F.P_SKEW_TAP : Fld := ⟨0x38, 5, 0⟩
abbrev R.P_MONITOR : Nat := 0x3c
abbrev F.P_MONITOR_CODE : Fld := ⟨0x3c, 27, 0⟩
/-! D (Tables 02-10, 02-26 to 02-29) -/
abbrev R.D_LOADCFG : Nat := 0x30
abbrev F.D_LOADCFG_OPEN_DET : Fld := ⟨0x30, 2, 2⟩
abbrev F.D_LOADCFG_CLOAD : Fld := ⟨0x30, 1, 0⟩
abbrev R.D_LOADMON : Nat := 0x34
abbrev F.D_LOADMON_IMON : Fld := ⟨0x34, 31, 16⟩
abbrev F.D_LOADMON_VMON : Fld := ⟨0x34, 15, 0⟩
abbrev R.D_JERK : Nat := 0x40
abbrev F.D_JERK_EXP : Fld := ⟨0x40, 15, 12⟩
abbrev F.D_JERK_MANT : Fld := ⟨0x40, 11, 0⟩
abbrev R.D_ILIM : Nat := 0x44
abbrev F.D_ILIM_LIM : Fld := ⟨0x44, 4, 0⟩
/-! A (Table 09-9) -/
abbrev R.A_CTRL : Nat := 0
abbrev F.A_CTRL_TEMPCO : Fld := ⟨0, 14, 14⟩
abbrev F.A_CTRL_ODR : Fld := ⟨0, 11, 8⟩
abbrev F.A_CTRL_FILT : Fld := ⟨0, 5, 4⟩
abbrev F.A_CTRL_RANGE : Fld := ⟨0, 3, 2⟩
abbrev F.A_CTRL_EN : Fld := ⟨0, 0, 0⟩
abbrev R.A_STATUS : Nat := 0x4
abbrev F.A_STATUS_IN_CAP : Fld := ⟨0x4, 10, 10⟩
abbrev F.A_STATUS_CAP : Fld := ⟨0x4, 9, 8⟩
abbrev F.A_STATUS_CFG_IGNORED : Fld := ⟨0x4, 5, 5⟩
abbrev F.A_STATUS_MISS : Fld := ⟨0x4, 4, 4⟩
abbrev F.A_STATUS_TEMP_STALE : Fld := ⟨0x4, 3, 3⟩
abbrev F.A_STATUS_SETTLE : Fld := ⟨0x4, 2, 2⟩
abbrev F.A_STATUS_OVR : Fld := ⟨0x4, 1, 1⟩
abbrev R.A_LAST : Nat := 0x8
abbrev F.A_LAST_VALUE : Fld := ⟨0x8, 31, 8⟩
abbrev F.A_LAST_OVR : Fld := ⟨0x8, 7, 7⟩
abbrev F.A_LAST_MISS : Fld := ⟨0x8, 5, 5⟩
abbrev R.A_LTICK : Nat := 0xc
abbrev F.A_LTICK_TICK : Fld := ⟨0xc, 31, 0⟩
abbrev R.A_RED0 : Nat := 0x10
abbrev F.A_RED0_EN : Fld := ⟨0x10, 31, 31⟩
abbrev F.A_RED0_TYPE : Fld := ⟨0x10, 30, 29⟩
abbrev F.A_RED0_NM1 : Fld := ⟨0x10, 23, 0⟩
abbrev R.A_THRESH : Nat := 0x20
abbrev F.A_THRESH_TH : Fld := ⟨0x20, 31, 8⟩
abbrev R.A_DELAY : Nat := 0x24
abbrev F.A_DELAY_NS : Fld := ⟨0x24, 31, 0⟩
abbrev R.A_OVCOUNT : Nat := 0x28
abbrev F.A_OVCOUNT_COUNT : Fld := ⟨0x28, 31, 0⟩
abbrev R.A_CMON : Nat := 0x2c
abbrev F.A_CMON_VCM : Fld := ⟨0x2c, 15, 0⟩
/-! LC (Table 08-5) -/
abbrev R.LC_CTRL : Nat := 0
abbrev F.LC_CTRL_UG : Fld := ⟨0, 27, 24⟩
abbrev F.LC_CTRL_ALIGN : Fld := ⟨0, 2, 2⟩
abbrev F.LC_CTRL_STOP_IDLE : Fld := ⟨0, 1, 1⟩
abbrev F.LC_CTRL_EN : Fld := ⟨0, 0, 0⟩
abbrev R.LC_LCFG : Nat := 0x4
abbrev F.LC_LCFG_DRIVE0 : Fld := ⟨0x4, 3, 2⟩
abbrev F.LC_LCFG_DRIVE1 : Fld := ⟨0x4, 7, 6⟩
abbrev F.LC_LCFG_DRIVE2 : Fld := ⟨0x4, 11, 10⟩
abbrev F.LC_LCFG_DRIVE3 : Fld := ⟨0x4, 15, 14⟩
abbrev F.LC_LCFG_DRIVE4 : Fld := ⟨0x4, 19, 18⟩
abbrev F.LC_LCFG_DRIVE5 : Fld := ⟨0x4, 23, 22⟩
abbrev F.LC_LCFG_DRIVE6 : Fld := ⟨0x4, 27, 26⟩
abbrev F.LC_LCFG_DRIVE7 : Fld := ⟨0x4, 31, 30⟩
abbrev F.LC_LCFG_MODE0 : Fld := ⟨0x4, 1, 0⟩
abbrev F.LC_LCFG_MODE1 : Fld := ⟨0x4, 5, 4⟩
abbrev F.LC_LCFG_MODE2 : Fld := ⟨0x4, 9, 8⟩
abbrev F.LC_LCFG_MODE3 : Fld := ⟨0x4, 13, 12⟩
abbrev F.LC_LCFG_MODE4 : Fld := ⟨0x4, 17, 16⟩
abbrev F.LC_LCFG_MODE5 : Fld := ⟨0x4, 21, 20⟩
abbrev F.LC_LCFG_MODE6 : Fld := ⟨0x4, 25, 24⟩
abbrev F.LC_LCFG_MODE7 : Fld := ⟨0x4, 29, 28⟩
abbrev R.LC_LEVELS : Nat := 0x8
abbrev F.LC_LEVELS_SAFE_Z : Fld := ⟨0x8, 31, 24⟩
abbrev F.LC_LEVELS_SAFE : Fld := ⟨0x8, 23, 16⟩
abbrev F.LC_LEVELS_IDLE_Z : Fld := ⟨0x8, 15, 8⟩
abbrev F.LC_LEVELS_IDLE : Fld := ⟨0x8, 7, 0⟩
abbrev R.LC_STATE : Nat := 0xc
abbrev F.LC_STATE_PIN : Fld := ⟨0xc, 31, 24⟩
abbrev F.LC_STATE_GROUP : Fld := ⟨0xc, 23, 20⟩
abbrev F.LC_STATE_IN_GROUP : Fld := ⟨0xc, 19, 19⟩
abbrev F.LC_STATE_VIO_OK : Fld := ⟨0xc, 18, 18⟩
abbrev F.LC_STATE_LAT : Fld := ⟨0xc, 15, 8⟩
abbrev F.LC_STATE_CSTATE : Fld := ⟨0xc, 3, 0⟩
abbrev R.LC_STATUS : Nat := 0x10
abbrev F.LC_STATUS_IN_MERGE : Fld := ⟨0x10, 4, 4⟩
abbrev F.LC_STATUS_CONTENTION : Fld := ⟨0x10, 3, 3⟩
abbrev F.LC_STATUS_CFG_IGNORED : Fld := ⟨0x10, 2, 2⟩
abbrev F.LC_STATUS_VIO_LOW : Fld := ⟨0x10, 1, 1⟩
abbrev F.LC_STATUS_NVM_LANE_BAD : Fld := ⟨0x10, 0, 0⟩
abbrev R.LC_SKEW_LO : Nat := 0x14
abbrev F.LC_SKEW_LO_TAP0 : Fld := ⟨0x14, 5, 0⟩
abbrev F.LC_SKEW_LO_TAP1 : Fld := ⟨0x14, 13, 8⟩
abbrev F.LC_SKEW_LO_TAP2 : Fld := ⟨0x14, 21, 16⟩
abbrev F.LC_SKEW_LO_TAP3 : Fld := ⟨0x14, 29, 24⟩
abbrev R.LC_SKEW_HI : Nat := 0x18
abbrev F.LC_SKEW_HI_TAP0 : Fld := ⟨0x18, 5, 0⟩
abbrev F.LC_SKEW_HI_TAP1 : Fld := ⟨0x18, 13, 8⟩
abbrev F.LC_SKEW_HI_TAP2 : Fld := ⟨0x18, 21, 16⟩
abbrev F.LC_SKEW_HI_TAP3 : Fld := ⟨0x18, 29, 24⟩
abbrev R.LC_INCFG : Nat := 0x1c
abbrev F.LC_INCFG_LEVEL : Fld := ⟨0x1c, 31, 24⟩
abbrev F.LC_INCFG_FILT : Fld := ⟨0x1c, 23, 16⟩
abbrev F.LC_INCFG_EDGE0 : Fld := ⟨0x1c, 1, 0⟩
abbrev F.LC_INCFG_EDGE1 : Fld := ⟨0x1c, 3, 2⟩
abbrev F.LC_INCFG_EDGE2 : Fld := ⟨0x1c, 5, 4⟩
abbrev F.LC_INCFG_EDGE3 : Fld := ⟨0x1c, 7, 6⟩
abbrev F.LC_INCFG_EDGE4 : Fld := ⟨0x1c, 9, 8⟩
abbrev F.LC_INCFG_EDGE5 : Fld := ⟨0x1c, 11, 10⟩
abbrev F.LC_INCFG_EDGE6 : Fld := ⟨0x1c, 13, 12⟩
abbrev F.LC_INCFG_EDGE7 : Fld := ⟨0x1c, 15, 14⟩
abbrev R.LC_EYE01 : Nat := 0x20
abbrev F.LC_EYE01_ODD : Fld := ⟨0x20, 31, 16⟩
abbrev F.LC_EYE01_EVEN : Fld := ⟨0x20, 15, 0⟩
abbrev R.LC_EYE23 : Nat := 0x24
abbrev F.LC_EYE23_ODD : Fld := ⟨0x24, 31, 16⟩
abbrev F.LC_EYE23_EVEN : Fld := ⟨0x24, 15, 0⟩
abbrev R.LC_EYE45 : Nat := 0x28
abbrev F.LC_EYE45_ODD : Fld := ⟨0x28, 31, 16⟩
abbrev F.LC_EYE45_EVEN : Fld := ⟨0x28, 15, 0⟩
abbrev R.LC_EYE67 : Nat := 0x2c
abbrev F.LC_EYE67_ODD : Fld := ⟨0x2c, 31, 16⟩
abbrev F.LC_EYE67_EVEN : Fld := ⟨0x2c, 15, 0⟩
/-! BRG (R75, Table 03-5) -/
abbrev R.BRG_XCFG : Nat := 0
abbrev F.BRG_XCFG_FNOM : Fld := ⟨0, 31, 16⟩
abbrev F.BRG_XCFG_EXMODE : Fld := ⟨0, 1, 0⟩
abbrev R.BRG_XSTAT : Nat := 0x4
abbrev F.BRG_XSTAT_FMEAS : Fld := ⟨0x4, 31, 16⟩
abbrev F.BRG_XSTAT_NEG : Fld := ⟨0x4, 4, 4⟩
abbrev F.BRG_XSTAT_CM_CLAMP : Fld := ⟨0x4, 3, 3⟩
abbrev F.BRG_XSTAT_EXC_HIGH : Fld := ⟨0x4, 2, 2⟩
abbrev F.BRG_XSTAT_EXC_LOW : Fld := ⟨0x4, 1, 1⟩
abbrev F.BRG_XSTAT_TRK_LOCK : Fld := ⟨0x4, 0, 0⟩
abbrev R.BRG_XDELAY : Nat := 0x8
abbrev F.BRG_XDELAY_PS : Fld := ⟨0x8, 31, 0⟩
abbrev R.BRG_XPEAK : Nat := 0xc
abbrev F.BRG_XPEAK_UV : Fld := ⟨0xc, 23, 0⟩
/-! STR (R94, Table 04-6) -/
abbrev R.STR_SCFG : Nat := 0
abbrev F.STR_SCFG_FAULT_PARK : Fld := ⟨0, 9, 9⟩
abbrev F.STR_SCFG_PARK_ON_DIS : Fld := ⟨0, 8, 8⟩
abbrev F.STR_SCFG_FRANGE : Fld := ⟨0, 7, 4⟩
abbrev F.STR_SCFG_RRANGE : Fld := ⟨0, 3, 0⟩
abbrev R.STR_RESTV : Nat := 0x4
abbrev F.STR_RESTV_VAL : Fld := ⟨0x4, 27, 0⟩
abbrev R.STR_FAULTV : Nat := 0x8
abbrev F.STR_FAULTV_VAL : Fld := ⟨0x8, 27, 0⟩
abbrev R.STR_RCHGV : Nat := 0xc
abbrev F.STR_RCHGV_VAL : Fld := ⟨0xc, 27, 0⟩
abbrev R.STR_RAMP : Nat := 0x10
abbrev F.STR_RAMP_EN_EXP : Fld := ⟨0x10, 31, 28⟩
abbrev F.STR_RAMP_EN_MANT : Fld := ⟨0x10, 27, 16⟩
abbrev F.STR_RAMP_NV_EXP : Fld := ⟨0x10, 15, 12⟩
abbrev F.STR_RAMP_NV_MANT : Fld := ⟨0x10, 11, 0⟩
abbrev R.STR_JRAMP : Nat := 0x14
abbrev F.STR_JRAMP_NJ_EXP : Fld := ⟨0x14, 15, 12⟩
abbrev F.STR_JRAMP_NJ_MANT : Fld := ⟨0x14, 11, 0⟩
abbrev R.STR_RCRC : Nat := 0x1c
abbrev F.STR_RCRC_CRC : Fld := ⟨0x1c, 31, 0⟩
abbrev R.STR_STEVT : Nat := 0x20
abbrev F.STR_STEVT_SW_FAIL : Fld := ⟨0x20, 4, 4⟩
abbrev F.STR_STEVT_RCHG : Fld := ⟨0x20, 3, 3⟩
abbrev F.STR_STEVT_GRANT_WAIT : Fld := ⟨0x20, 2, 2⟩
abbrev F.STR_STEVT_SD_OVERTAKEN : Fld := ⟨0x20, 1, 1⟩
abbrev F.STR_STEVT_SD_DONE : Fld := ⟨0x20, 0, 0⟩
/-! SYN (R164, Table 07-6) -/
abbrev R.SYN_TBL_STAT : Nat := 0
abbrev F.SYN_TBL_STAT_SWAPS : Fld := ⟨0, 31, 16⟩
abbrev F.SYN_TBL_STAT_UE : Fld := ⟨0, 3, 3⟩
abbrev F.SYN_TBL_STAT_LOAD_BUSY : Fld := ⟨0, 2, 2⟩
abbrev F.SYN_TBL_STAT_SWAP_PEND : Fld := ⟨0, 1, 1⟩
abbrev F.SYN_TBL_STAT_ABANK : Fld := ⟨0, 0, 0⟩
abbrev R.SYN_TBL_CRC_A : Nat := 0x4
abbrev F.SYN_TBL_CRC_A_CRC : Fld := ⟨0x4, 31, 0⟩
abbrev R.SYN_TBL_CRC_B : Nat := 0x8
abbrev F.SYN_TBL_CRC_B_CRC : Fld := ⟨0x8, 31, 0⟩
abbrev R.SYN_PHASE_LO : Nat := 0x100
abbrev F.SYN_PHASE_LO_PHI : Fld := ⟨0x100, 31, 0⟩
abbrev R.SYN_PHASE_HI : Nat := 0x104
abbrev F.SYN_PHASE_HI_PHI : Fld := ⟨0x104, 15, 0⟩
abbrev R.SYN_CVSTAT : Nat := 0x108
abbrev F.SYN_CVSTAT_COUNT : Fld := ⟨0x108, 31, 16⟩
abbrev F.SYN_CVSTAT_CV_OVR : Fld := ⟨0x108, 0, 0⟩
abbrev R.SYN_CVLAST : Nat := 0x10c
abbrev F.SYN_CVLAST_VALID : Fld := ⟨0x10c, 31, 31⟩
abbrev F.SYN_CVLAST_SEQ : Fld := ⟨0x10c, 11, 8⟩
abbrev F.SYN_CVLAST_IDX : Fld := ⟨0x10c, 7, 0⟩

end Sys2Proof.Machine
end

