-- ==== Sys2Proof/Machine/State.lean ====
section
/-! DEFINITION. The state of the EPK-4816, as plain data. What a register shows and nothing else holds
stands in the register file `regs`; the rest stands in structures of its own, by the block that owns it. -/

namespace Sys2Proof.Machine

/-- Why a step stops. -/
inductive Fault where
  /-- Raised by every meaning whose operand names an object the part does not have (a tenth ring, unit
  200): such a happening cannot be. Safe: nothing is claimed of it. -/
  | noSuchObject
  deriving DecidableEq, Repr

/-- Why a step is refused. -/
inductive Refusal where
  /-- Raised by an arm of `exec` whose command has no meaning yet. Safe. -/
  | notModelled (mnemonic : String)
  deriving DecidableEq, Repr

/-! ## The register file -/

/-- A copy of a triplicated bit that differs from the other two (R319, R320). -/
structure Flip where
  adr    : Nat
  shadow : Bool
  copy   : Nat
  bit    : Nat
  deriving DecidableEq, Repr

/-- A write on its way to an analogue die (R314): the region's link, the register, the value with the
bits it changes, and the device time of the access. -/
structure LinkWrite where
  rgn  : Nat
  adr  : Nat
  val  : Nat
  mask : Nat
  sent : Nat
  deriving DecidableEq, Repr

/-- One buffered field group of a unit or lane cluster waiting for the boundary at which a strobe's copy
(R323) or a commit strobe (R295, `ug = none`) applies: the register, the value and the bits. -/
structure Strobe where
  tgt   : Nat
  due   : Nat
  ug    : Option Nat
  words : List (Nat × Nat × Nat)
  edge  : Nat := 0
  deriving DecidableEq, Repr

/-- The last mirrored words of the registers of the units of region `rgn`, whose link is lost (R314): the programmed
words and the words in force. -/
structure LinkMirror where
  rgn  : Nat
  regs : List (Nat × Word)
  act  : List (Nat × Word)
  deriving DecidableEq, Repr

/-- What the register interface holds beside the registers: the edge (+ 1) at which each update group was last
strobed, the two shadows of R321 (the higher words that the last latching read took), for each indirect pair
the PHASE_HI that its last fetch of a PHASE_LO latched (address of the PHASE_HI, word; R164), the word that
each master's last read returned, the mirrors of the regions whose link is lost, the registers that a host has
written in the core cycle that began at `cycleAt` − 1, each with its programmed word before, and the SYN_FREQ and
SYN_PHASE registers that a host has written and no strobe has taken since (R159), and the update groups with the edges at
which strobes already recorded take their shadows and clear UG_PEND (R323). Of the cycle that began at `hwAt` − 1:
the flags that the hardware has raised (register and bits) and the samples of its maximum-hold fields (register, high and
low bit, sample; R326). The cycle of 5 ns of device time (counted from 1) in which an access was last made, and by which
master (1 PCIe, 2 SPI; R313). -/
structure HostIf where
  lastUg : List (Nat × Nat) := []
  latchP : List Word := []
  latchS : List Word := []
  phaseP : Nat × Word := (0, 0)
  phaseS : Nat × Word := (0, 0)
  readP  : Word := 0
  readS  : Word := 0
  mirrors : List LinkMirror := []
  cycleAt : Nat := 0
  cycleWr : List (Nat × Word) := []
  ugClr   : List (Nat × Nat) := []
  synNew  : List Nat := []
  hwAt    : Nat := 0
  hwSet   : List (Nat × Nat) := []
  hwMax   : List (Nat × Nat × Nat × Nat) := []
  slotAt  : Nat := 0
  slotBy  : Nat := 0
  deriving DecidableEq, Repr

/-! ## The command path -/

/-- Where a taken command stands (R292). -/
inductive JobPhase where
  | inProgress | waiting
  deriving DecidableEq, Repr

/-- A command in progress or waiting: its packet, its opcode, the steps it has done (R289), its partial
result, what it still has to do (`todo`, by opcode), a deadline in ns of device time (0: none), whether a reset of
the PCIe endpoint discards its completion (R385), the microengine steps after its first, and which of the packets taken it
is, counted from 1 (two packets in flight may carry one tag, R287). -/
structure Job where
  h      : Hdr
  op     : Nat
  p      : List Word
  data   : List Word
  phase  : JobPhase
  steps  : Nat
  result : Nat
  detail : Nat
  todo   : List Nat
  due    : Nat
  mute   : Bool := false
  later  : Nat := 0
  id     : Nat := 0
  deriving DecidableEq, Repr

/-- A completion entry (R289) with the flags that say how it is posted. -/
structure Completion where
  h      : Hdr
  op     : Nat
  status : Nat
  detail : Nat
  steps  : Nat
  result : Nat
  deriving DecidableEq, Repr

/-- The command path: commands taken and not completed, held completions (R290), the PHASE bit, the
arbitration of R293, the interrupts raised, the command window and what the device wrote to host
memory; the headers of host-memory rings that the microengine has read at HEAD and not yet taken, how many packets it has
taken, the one whose step is running or ran last (its number among them), the PCIe read failures reported through AER
(R288), and whether a step (0) and the first step of an URGENT packet (1) have run since STEP_MAX or LAT_URG was last looked
at (R326). -/
structure CmdSt where
  jobs     : List Job := []
  held     : List Completion := []
  phase    : Bool := true
  arbRing  : Nat := 1
  arbLeft  : Nat := 1
  bgLast   : Nat := 0
  bgDue    : Bool := false
  coalCnt  : Nat := 0
  coalFrom : Nat := 0
  msix     : List (Nat × Nat) := []
  window   : List (Nat × Byte) := []
  hostMem  : List (Nat × Byte) := []
  peeked   : List (Nat × Word) := []
  taken    : Nat := 0
  cur      : Nat := 0
  aer      : Nat := 0
  unseen   : List Nat := []
  deriving DecidableEq, Repr

/-! ## Groups and units -/

/-- A defined group (R11, R12): rate, members. -/
structure Group where
  defined : Bool := false
  lane    : Bool := false
  div     : Nat := 1
  mask    : Nat := 0
  lcmask  : Nat := 0
  deriving DecidableEq, Repr

/-- Where a ramp is to end once its range is reached (R78, R90): `value` is a value held in HOLD, a code of range `r`;
`park` before SLEEP (R374). -/
inductive Goal where
  | rest | fault | play | park
  | value (v : Int) (r : Nat)
  deriving DecidableEq, Repr

/-- A change of state scheduled for a unit's first frame boundary at or after `due` (Table 04-2). -/
inductive Trans where
  | enable | disable | fault (viaSafe : Bool) | resume | newRest | newFault | pause | unpause
  | park
  deriving DecidableEq, Repr

/-- A strobe that has applied: its update group + 1 (0: a commit strobe), the time it was due, the boundary. -/
abbrev StrobeKey := Nat × Nat × Nat

/-- A range change in course (R90 to R93): the new range, the range-change value in the old and the new
range, whether the mode changes, the strobe under which it began (units that begin under one strobe applied at one
boundary switch together; none: alone), whether the value is reached, frame p's boundary once the switch runs (0
before), and F. -/
structure RangeChange where
  tgt     : Nat
  valOld  : Int
  valNew  : Int
  mode    : Bool
  co      : Option StrobeKey
  reached : Bool
  p       : Nat
  f       : Nat
  deriving DecidableEq, Repr

/-- A frame in the output chain (R5, R55): its boundary and its pin time, the period of its frames, the corrected value
of stage 4, its range, whether the series switch is open, whether the state is PARK, the word of BRIDGE that the unit
follows, whether the expansion to the next frame is linear (R43). -/
structure ChainFrame where
  b    : Nat
  pin  : Nat
  t    : Nat
  y    : Int
  rng  : Nat
  open' : Bool
  park : Bool
  brg  : Word
  lin  : Bool
  deriving DecidableEq, Repr

/-- The excitation side of a P unit (R59 to R68): the samples of the tracking converter in the last window, newest first,
one each f_M cycle, and the SYSTIME (+ 1) of the newest; the SYSTIME (+ 1) at which
the peak last was 1 V or more, at which the tracker became unlocked, and from which E moves between compensated and
uncompensated, with the share of compensation (of 2^24) it moves from; and by carrier period, newest first, of the last
16 locked periods the sum of squares, the samples, the peak and the quadrature. -/
structure ExcSt where
  win     : List ExcSample := []
  winAt   : Nat := 0
  highAt  : Nat := 0
  unlockAt : Nat := 0
  blendAt : Nat := 0
  blendW  : Nat := 0
  periods : List (Nat × Nat × Nat × Int) := []
  deriving DecidableEq, Repr

/-- A P or D unit beyond its registers: the code it last supplied to stage 4 and its corrected value,
the range of the frames now entering, the ramp (inner ramp `r`, its history newest first, the value it
started from), its goal, the range change, scheduled transitions, the shutdown in course and how the
last one ended (`sd`: 3 asked, 1 done, 2 overtaken), the state a grant wait pauses, grants in mW, the last frame its group
delivered, pending pin-time changes of RANGE.ACT, temperature
in 1/128 K, the one delivered with its SYSTIME, the phase accumulator and noise register, CARVE actions waiting for a boundary (due, sequencer,
first index of the chain, OP, VALUE), the sine bank in use with a swap's boundary, whether sense is lost,
the controller's state while the pin shows the open switch of a change between modes (Table 04-4), or of one that failed,
the strobe that last applied, of each switch whose RANGE.ACT is still to come the pin time (+ 1) at which it began, the
SYSTIME (+ 1) of the last
sense check, whether compliance and modulator overload last (R54), the frames in the output chain, newest first, the
excitation, whether a valid unit record is in force (R80), whether the ramp in course runs at the NVM slope as at start-up
(Table 04-2), the words of BRIDGE and XCFG that the pin follows (R81), and the ramp limits (slope, enable slope, jerk) that
were in force until an instant, oldest first (R85).
LFSR is 1 before the first SEQ_ARM seeds it: the spec gives no value there (DESIGN CHOICE, log entry 4). -/
structure UnitSt where
  x        : Int := 0
  y        : Int := 0
  rng      : Nat := 0
  goal     : Goal := .rest
  r        : Int := 0
  hist     : List Int := []
  start    : Int := 0
  rc       : Option RangeChange := none
  trans    : List (Nat × Trans) := []
  disabling : Bool := false
  sd       : Nat := 0
  paused   : Option (Nat × Nat) := none
  viaSafe  : Bool := false
  afterDis : Bool := false
  enabled  : Bool := false
  floor    : Nat := 0
  grant    : Nat := 0
  last     : Int := 0
  delivered : Bool := false
  actQ     : List (Nat × Nat) := []
  temp     : Int := 0
  tempNew  : Option (Int × Nat) := none
  tempAt   : Nat := 0
  swapDue  : Option Nat := none
  lastB    : Nat := 0
  phi      : Nat := 0
  lfsr     : Nat := 1
  synOn    : Bool := false
  carveQ   : List (Nat × Nat × Nat × Nat × Nat) := []
  sbank    : Nat := 0
  sineDue  : Option Nat := none
  senseInt : Bool := false
  hid      : Option Nat := none
  mode     : Nat := 0
  lastStrobe : Option StrobeKey := none
  swFrom   : List Nat := []
  senseAt  : Nat := 0
  comp     : Bool := false
  ovl      : Bool := false
  chain    : List ChainFrame := []
  exc      : ExcSt := {}
  recOk    : Bool := false
  nvSlope  : Bool := false
  brg      : Word := 0
  xcfg     : Word := 0xBB800000
  lims     : List (Nat × Nat × Nat × Nat) := []
  deriving DecidableEq, Repr

/-! ## Lane clusters and sequencers -/

/-- What a lane cluster drives from SYSTIME `due` on: the state of Table 08-3 it drives for, the lane byte of an ACTIVE or
HOLD frame, and LCFG as it stood when the frame entered. LEVELS are looked up as they stand. -/
structure LanePin where
  due  : Nat := 0
  st   : Nat := 0
  byte : Nat := 0
  cfg  : Word := 0
  deriving DecidableEq, Repr

/-- A lane cluster beyond its registers: the lane byte of the frame last taken (0 outside ACTIVE and
HOLD), what is on its way to the pins with its pin times, what is at the pins, whether VIO keeps the drivers off and from
when they drive again, SAFE entered by the FAULT underrun policy, scheduled changes, the pads of the input lanes and their
last events (+ 1), the last boundary, the edge (+ 1) at which SAFE was entered, the boundary (+ 1) at which a strobe last
changed LCFG with LCFG before it, since when (+ 1) LEVELS stand, since when (+ 1) an eye measurement drives the
lanes and from when it no longer does (R176), and the skew taps as they stood before their latest writes, each with the bit
boundary from which the written ones act (R174). -/
structure LaneSt where
  byte    : Nat := 0
  pipe    : List LanePin := []
  pin     : LanePin := {}
  vioOff  : Bool := false
  vioBack : Nat := 0
  underrunSafe : Bool := false
  trans   : List (Nat × Trans) := []
  raw     : Nat := 0
  lastEv  : List (Nat × Nat) := []
  lastB   : Nat := 0
  mode    : Nat := 0
  safeAt  : Nat := 0
  cfgAt   : Nat := 0
  cfgOld  : Word := 0
  levAt   : Nat := 0
  prbsAt  : Nat := 0
  prbsTo  : Nat := 0
  tapOld  : List (Nat × Word × Word) := []
  deriving DecidableEq, Repr

/-- A set jump latch (R133): owner step, the frame of the event, the edge at which it was taken, whether a
SEQ_JUMP set it, the hop count of what follows it, whether it is late (R134), and, of an AT_GRANULE step with a ring target,
whether the member was found STREAM_EMPTY at the event's edge (R136). -/
structure JumpLatch where
  owner : Nat
  frame : Nat
  edge  : Nat
  cmd   : Bool
  hop   : Nat
  late  : Bool
  empty : Bool := false
  deriving DecidableEq, Repr

/-- An event that a sequencer takes at edge `e`, in a frame that has not yet begun (R133, R137, R145): a jump on input `k`,
whether a SEQ_JUMP made it, with the hop count of what follows; a gate event; a stop. -/
inductive SeqEvent where
  | jump (k e : Nat) (cmd : Bool) (hop : Nat)
  | gate (e : Nat)
  | stop (e mode cause hop : Nat) (dis : Bool)
  deriving DecidableEq, Repr

/-- What a decision chose to follow the pass (R131, R134): the step, whether a jump chose it, the hop count
of its step start and the sink whose event led to it, whether the gate of the step that ends applies, and whether the
read that counts for it found its ring member STREAM_EMPTY. -/
structure Successor where
  step : Nat
  jump : Bool
  gate : Bool
  hop  : Nat
  sink : Nat
  empty : Bool
  deriving DecidableEq, Repr

/-- A stop that has been taken (R145): first frame not delivered (none: at the end of the next pass,
PASS mode after frame d), whether its mode is PASS, the cause, the hop count of the sequence end, whether it
disarms. -/
structure SeqStop where
  pass   : Bool
  frame  : Option Nat
  cause  : Nat
  hop    : Nat
  disarm : Bool
  deriving DecidableEq, Repr

/-- A sequencer beyond its registers: what it is doing (`mode`: 0 nothing, 1 a pass, 2 an underrun replay,
3 a gate wait, 4 a wait with the idle segment, 5 an underrun hold), the boundary (ns) of frame 0, the start
taken with its boundary and edge, the next frame to enter, the segment of the pass and its length, the frames
at which the pass and the entry began, the amplitude, whether the ring read and the decision of this pass are
made, what the ring read found, the successor a jump chose, the underrun policy of the decision, jump latches
by input, the granule at which an AT_GRANULE jump cuts, the edge of the latched gate event, the frame fixed
for a release or for the end of an underrun hold and the edge of the event that fixed it, where the wait began, the
underrun hold's next check,
for a hold in a blackout the mode it goes back to and the frame it holds at (R280), the
stop taken, markers of the last frame, pins and start admission of the arm, whether frame 0 has begun, the entry whose
CARVE chain has been read, the cached segments that an uncorrectable loop-cache error makes it play from DRAM until
it is disarmed (R113), the events to take in frames to come, the index in its segment of the last frame of the step that a
wait follows, and the segments of which it holds the first granule as candidates (R132). -/
structure SeqSt where
  mode     : Nat := 0
  t0       : Nat := 0
  startAt  : Option Nat := none
  startE   : Nat := 0
  frame    : Nat := 0
  seg      : Nat := 0
  len      : Nat := 0
  s        : Nat := 0
  entry    : Nat := 0
  amp      : Int := 65536
  readDone : Bool := false
  empties  : List Nat := []
  decided  : Bool := false
  succ     : Option Successor := none
  upol     : Nat := 0
  latches  : List (Nat × JumpLatch) := []
  cut      : Option Nat := none
  gateLat  : Option Nat := none
  release  : Option Nat := none
  relEdge  : Nat := 0
  waitFrom : Nat := 0
  holdNext : Nat := 0
  held     : Nat := 0
  heldAt   : Nat := 0
  stop     : Option SeqStop := none
  marks    : Nat := 0
  pins     : List Nat := []
  admitted : Bool := false
  played   : Bool := false
  carved   : Option Nat := none
  lcOff    : List Nat := []
  evq      : List SeqEvent := []
  lastIdx  : Nat := 0
  pre      : List Nat := []
  deriving DecidableEq, Repr

/-! ## Modes, admission, PATROL -/

/-- A two-phase mode change (R352): target, whether system-wide, the prepare deadline, the parties that
reported, the first refusal (reason, DETAIL), the commit edge, the parties that have applied it with
the first and the last application. -/
structure ModeChange where
  target  : Nat
  system  : Bool
  due     : Nat
  parties : List Nat
  ready   : List Nat
  refusal : Option (Nat × Nat)
  edge    : Option Nat
  applied : List Nat
  first   : Nat
  last    : Nat
  deriving DecidableEq, Repr

/-- For whom PAC holds a request: a unit's range grant, a PAC_RESERVE handle, or a command by opcode. -/
inductive PacOwner where
  | unit (u : Nat)
  | handle (k : Nat)
  | seq (n : Nat)
  | cmd (op : Nat)
  deriving DecidableEq, Repr

/-- A queued PAC request (R361, R362): class (3 safety to 0 background), hierarchy index, the charges by
ledger (Table 16-5 numbering), the owner, the ring of its command and which of the packets taken that is, the end of its
timeout. -/
structure PacReq where
  cls    : Nat
  idx    : Nat
  amts   : List (Nat × Nat)
  owner  : PacOwner
  ring   : Nat
  id     : Nat
  due    : Nat
  deriving DecidableEq, Repr

/-- A PAC_RESERVE handle in use: queued (1) or granted (2), class, ledger, amount. -/
structure Handle where
  st     : Nat := 0
  bg     : Bool := false
  ledger : Nat := 0
  amount : Nat := 0
  deriving DecidableEq, Repr

/-- A PATROL window (R368): class, object, opening, WIN in ns, THRESH, count. -/
structure Window where
  cls    : Nat
  obj    : Nat
  opened : Nat
  win    : Nat
  thresh : Nat
  count  : Nat
  deriving DecidableEq, Repr

/-- Modes, PAC and PATROL beyond their registers. -/
structure SysSt where
  change  : Option ModeChange := none
  queue   : List PacReq := []
  handles : List (Nat × Handle) := []
  windows : List Window := []
  log     : List (Nat × Word) := []
  rgnUp   : List (Nat × Nat) := []
  commits : List (Nat × Nat) := []
  resumes : List Nat := []
  retire  : List Nat := []
  announce : Bool := false
  cdie    : Nat := 0
  deriving DecidableEq, Repr

/-! ## Clocks -/

/-- The clocks beyond the registers (R240 to R253): whether the selected reference and the crystal are lost; the
policy chosen for the pending relock (0 STEER, 1 STEP_AT_GATE, 2 STEP_NOW, 3 HOST; none: no relock is pending), its
group and δ in ps; the 64-cycle measurement in course, and on a Gyden node its result until the next GSYNC; the
instant + 1 at which a step is to be made, and whether the loops may declare lock; the SYSTIME that a forward step
skipped, from and to; the SYSTIME (+ 1) of the last loss of lock; the instant (+ 1) from which the present steering counts; by
loop the instant (+ 1) from which it acquires, and the tuning word held in GLIDE; the
SYSTIME at which the output dividers were last released; by row of Table 11-2 the largest latency seen; when the present
GLIDE and the present untraceable time began (ns + 1; 0: not so), the whole
untraceable time before; the deadline (+ 1) of a PLL_CONFIG; and the frame domains' switches to (true) and from
backup timing with the SYSTIME at which each is made: 0–15 analogue clusters, 16–23 lane clusters, 24–31
acquisition clusters, 32 the rest. -/
structure ClockSt where
  refLost  : Bool := false
  xtalLost : Bool := false
  policy   : Option Nat := none
  grp      : Nat := 0
  delta    : Int := 0
  measuring : Bool := false
  modulo   : Option Int := none
  stepAt   : Nat := 0
  closing  : Bool := false
  skipFrom : Nat := 0
  skipTo   : Nat := 0
  glideAt  : Nat := 0
  untrAt   : Nat := 0
  untr     : Nat := 0
  lockBy   : Nat := 0
  domains  : List (Nat × Nat × Bool) := []
  lolAt    : Nat := 0
  steerAt  : Nat := 0
  acqAt    : List (Nat × Nat) := []
  tune     : List (Nat × Nat) := []
  release  : Nat := 0
  cross    : List (Nat × Nat) := []
  deriving DecidableEq, Repr

/-! ## Supplies, resets, links to the host, the always-on domain -/

/-- The package's outer state: supplies valid and the CDIE running, RST_N held low, the instant (+ 1) at which a
SLEEP removes power (R374), whether a SLEEP entry is under way, the PCIe link and bus mastering (R385), SPI's READY
and ERR bits (Table 17-2), the present TAP instruction (R388), SAFE_N accepted low, the start-up that a valid image
would continue (R394), while reset is held, the bit of RESET_CAUSE that the next start-up shows, and by supply the
instant at which it is back above its release level (R367). -/
structure BootSt where
  powered  : Bool := false
  held     : Bool := false
  offAt    : Nat := 0
  sleeping : Bool := false
  pcieUp   : Bool := false
  spiReady : Bool := false
  spiErr   : Bool := false
  tap      : TapInstr := .idcode
  safeLow  : Bool := false
  env      : Option BootEnv := none
  cause    : Nat := 0
  lowTill  : List (Nat × Nat) := []
  deriving DecidableEq, Repr

/-- The always-on domain beyond its registers: VAON present, ns into the present second of the RTC, the load
register, the second (+ 1) in which RTC_SET was written, the instant (+ 1) at which the watchdog expires. -/
structure AonSt where
  on      : Bool := false
  frac    : Nat := 0
  load    : Nat := 0
  setIn   : Nat := 0
  wdogAt  : Nat := 0
  deriving DecidableEq, Repr

/-! ## Events -/

/-- A firing of a source that the router has not taken yet: source, hop count, the instant from which
it is due. -/
structure Firing where
  src : Nat
  hop : Nat
  due : Nat
  deriving DecidableEq, Repr

/-- Timer `n` (R218): when it fires next (0: not running), firings left after that (0 in an unbounded run,
see `bounded`), the hop count of its next firing, period, a queued start's hop count, events counted, and the CFG under
which it runs. -/
structure Tmr where
  next    : Nat := 0
  left    : Nat := 0
  bounded : Bool := true
  hop     : Nat := 0
  period  : Nat := 0
  queued  : Option Nat := none
  count   : Nat := 0
  cfg     : Word := 0
  deriving DecidableEq, Repr

/-- The router and its pins beyond the registers: committed route entries by sink, counts by sink (deliveries
+ 65,536 × blocked), events in the router (source, hop count, stamp), EVIN's filtered levels and last event by
pin, since when each gate level reads 1, when one that reads 0 fell and since when it had read 1 before, timers, the instants at which EVOUT pulses end, the last one ended
and a queued one starts (+ 1 each), and the toggled state of each EVOUT. Of a router cycle that began at `lvlAt` − 1,
`rtAt` − 1 or `tmrAt` − 1, as it began: the gate levels, the route entries changed in it (sink, sources, configuration) and
the timers stopped in it. -/
structure EventSt where
  rtSrc  : List (Nat × Word) := []
  rtCfg  : List (Nat × Word) := []
  counts : List (Nat × Nat) := []
  bus    : List (Nat × Nat × Nat) := []
  evin   : Nat := 0
  evinAt : List (Nat × Nat) := []
  since  : List (Nat × Nat) := []
  dips   : List (Nat × Nat × Nat) := []
  tmrs   : List (Nat × Tmr) := []
  pulses : List (Nat × Nat) := []
  ended  : List (Nat × Nat) := []
  starts : List (Nat × Nat) := []
  tog    : Nat := 0
  lvlAt  : Nat := 0
  lvlOld : Nat := 0
  rtAt   : Nat := 0
  rtOld  : List (Nat × Word × Word) := []
  tmrAt  : Nat := 0
  tmrOld : List (Nat × Tmr) := []
  deriving DecidableEq, Repr

/-- What this node knows of node `n` (Table 10-13): delay reported, mode, flags, and the epoch in which it was
last heard. -/
structure NodeSt where
  delay : Nat := 0
  mode  : Nat := 0
  flags : Nat := 0
  heard : Nat := 0
  deriving DecidableEq, Repr

/-- The Gyden bus beyond the registers (R224 to R235): scheduled GEV-out slots (line, slot) and queued events;
pulses received or looped back that wait for their application (line, slot, whether a level); until when this node
drives a line, and until when a line's applied level lasts; what a master's frame announced for the next
epoch (SYSTIME, L_SYS, LMODE); on a master or a package off the bus what a GYDEN_CONFIG set, and on a master whether
its frame has announced it; the epoch (+ 1) of the last frame sent; the L_SYS before the last epoch that changed it and when that
began; the delay to be applied; nodes; the fraction of SYSTIME; round trips of a measurement still to
make and whether their result is applied; the deadline (+ 1) of a join; when a GSYNC or a frame of another master was last heard (+ 1), the
last epoch counted (+ 1); this node's reply to a system-wide mode change (1 ready, 2 refused), the target of a change
to be committed at the next GSYNC (+ 1), for how many frames the master still sends COMMIT, of which target, whether
it has a PREPARE to send, and whether GCLK is declared lost. -/
structure GydenSt where
  slots   : List (Nat × Nat) := []
  queued  : List Nat := []
  apply   : List (Nat × Nat × Nat) := []
  driven  : List (Nat × Nat) := []
  upto    : List (Nat × Nat) := []
  nextEp  : Option (Nat × Nat × Nat) := none
  setTime : Option Nat := none
  setLsys : Option Nat := none
  sentIn  : Nat := 0
  told    : Bool := false
  lsysOld : Nat := 1000
  lsysAt  : Nat := 0
  dlyTgt  : Option Nat := none
  nodes   : List (Nat × NodeSt) := []
  frac    : Nat := 0
  trips   : Nat := 0
  applyIt : Bool := false
  joinBy  : Nat := 0
  syncAt  : Nat := 0
  lastEp  : Nat := 0
  reply   : Nat := 0
  commit  : Nat := 0
  commitN : Nat := 0
  commitT : Nat := 0
  commitE : Option Nat := none
  prep    : Bool := false
  lost    : Bool := false
  deriving DecidableEq, Repr

/-! ## Segment memory -/

/-- A segment descriptor (R95, R100): state, format, length, first virtual page and page count, ring
membership, pins, loop-cache blocks, and the sequencers fetching it. -/
structure Seg where
  st     : Nat := 0
  sfmt   : Nat := 0
  na     : Nat := 0
  nl     : Nat := 0
  len    : Nat := 0
  vpn    : Nat := 0
  pages  : Nat := 0
  member : Bool := false
  ring   : Nat := 0
  idx    : Nat := 0
  pin    : Nat := 0
  lc     : Nat := 0
  fetch  : List Nat := []
  deriving DecidableEq, Repr

/-- A stream ring (R119, R121): members in ring order, next-member index, underruns, frame of the last. -/
structure Ring where
  members : List Nat := []
  next    : Nat := 0
  ucount  : Nat := 0
  uframe  : Nat := 0
  deriving DecidableEq, Repr

/-- A valid page table entry (Table 05-3): physical page, owner, a move in progress. -/
structure Pte where
  ppn  : Nat
  seg  : Nat
  move : Bool
  deriving DecidableEq, Repr

/-- What a stepped command wrote over, kept so that one ended INTERNAL leaves the device as it found it (R304): a word of a
table (step, byte address), a descriptor, a page that was not mapped, a page table entry, a ring. -/
inductive Undo where
  | word (k old : Nat)
  | desc (id : Nat) (old : Seg)
  | mapped (v : Nat)
  | entry (v : Nat) (old : Pte)
  | ring (id : Nat) (old : Ring)
  deriving DecidableEq, Repr

/-- A LIFT channel (R114 to R117): state as LIFT_STAT shows it, the address of the descriptor in course or
next to read, that descriptor (empty: not yet read) with the data it copies and the bytes copied of it,
descriptors completed and bytes written in the list, last status, last target, fault offset. -/
structure LiftCh where
  st    : Nat := 0
  addr  : Nat := 0
  desc  : List Word := []
  data  : List Word := []
  pos   : Nat := 0
  done  : Nat := 0
  bytes : Nat := 0
  lstat : Nat := 0
  seg   : Nat := 0
  ofs   : Nat := 0
  began : Nat := 0
  len   : Nat := 0
  deriving DecidableEq, Repr

/-- A page move in progress (R110): virtual page, destination, whether the old page is retired, when it began. -/
structure PageMove where
  vpn    : Nat
  dst    : Nat
  retire : Bool
  began  : Nat := 0
  deriving DecidableEq, Repr

/-- Segment memory: descriptors, rings, page table, DRAM bytes (by PPN × 8,192 + offset), the free pool
(returned pages and the lowest page never used), retired pages, the step table, LIFT channels, the page
move in course, the TLB's sets (most recent first), words
with a deliberate error (8-byte word address, bits), the ids whose pages a SEG_FREE still returns, the pages to be
retired whose deferral has been flagged (R111), at FSP1 the instant until which NRT_CAP.LIFT is used up (R281), and what
the commands in progress wrote over, newest first, with the number of the packet (R304). -/
structure MemSt where
  segs    : List (Nat × Seg) := []
  rings   : List (Nat × Ring) := []
  ptes    : List (Nat × Option Pte) := []
  dram    : List (Nat × Byte) := []
  free    : List Nat := []
  bump    : Nat := 8192
  retired : List Nat := []
  steps   : List (Nat × Nat) := []
  lifts   : List (Nat × LiftCh) := []
  move    : Option PageMove := none
  tlb     : List (Nat × List Nat) := []
  errs    : List (Nat × Nat) := []
  freeing : List Nat := []
  deferred : List Nat := []
  liftFree : Nat := 0
  undo    : List (Nat × Undo) := []
  deriving DecidableEq, Repr

/-- An error that a read met (R258, R269, R271): the 8-byte word, the bits wrong in it (1 or 2), the requester (REQ, SUB of
Table 12-3), the command (Table 12-12) and the segment read. -/
structure DramHit where
  word : Nat
  bits : Nat
  req  : Nat
  sub  : Nat
  cmd  : Nat
  seg  : Option Nat
  deriving DecidableEq, Repr

/-- The DRAM controller beyond its registers (R256 to R281): bank map in force, row-disturbance entries
by bank (16 × die + bank), throttles (REQ, SUB, bank), refreshes owed by die, by FSP the free value at which
the settings of the last training that passed begin, its least eye and the place of its worst bit, when a freeze was
detected, the instant from which a blackout in course serves no request, drift by die, the rolling activation counts by
bank (R268), the errors that the step in course met at its reads (acted on at its end: empty between steps), whether
the package enters SAFE once no DRAM-dependent group plays (R271), and when periodic work was last done (+ 1): 0 to 3 the
oscillator of die q, 4 MR4, 5 the tracking window, 6 the scrubber's pass; by class (0 RT0, 1 RT1, 2 NRT) the instant (+ 1) of
the last request served, and the classes that have been served since LAT_RT0 or LAT_RT1 was last looked at (R263). Drift
is kept by FSP: entry 8 × FSP + die as measured, 8 × FSP + 4 + die as applied. -/
structure DramSt where
  map      : List Nat := []
  rows     : List (Nat × List (Nat × Nat)) := []
  throttle : List (Nat × Nat × Nat) := []
  owed     : List (Nat × Nat) := []
  trained  : List (Nat × Nat × Nat × Nat) := []
  frozenAt : Nat := 0
  blackout : Option Nat := none
  drift    : List (Nat × Int) := []
  raa      : List (Nat × Nat) := []
  hits     : List DramHit := []
  safeDue  : Bool := false
  lastAt   : List (Nat × Nat) := []
  served   : List (Nat × Nat) := []
  unseen   : List Nat := []
  deriving DecidableEq, Repr

/-! ## Acquisition -/

/-- Capture `t` as ACQ_CONFIG defines it (Table 09-3). -/
structure CapCfg where
  fgrp    : Nat := 0
  fgrpEn  : Bool := false
  up      : Bool := false
  redEn   : Bool := false
  units   : Nat := 0
  capseg  : Nat := 0
  redseg  : Nat := 0
  pre     : Nat := 0
  post    : Nat := 0
  records : Nat := 0
  upAddr  : Nat := 0
  upSize  : Nat := 0
  deriving DecidableEq, Repr

/-- A reduction window in course (R194): unit, slot, window, whether its start was cut, OVR, MISS, words
included, and the two sums. -/
structure RedAcc where
  unit : Nat
  slot : Nat
  win  : Nat
  part : Bool
  ovr  : Bool
  miss : Bool
  n    : Nat
  a    : Int
  b    : Int
  deriving DecidableEq, Repr

/-- Capture and engine `t` beyond the registers: its configuration; the program by word (17 × state + word) and
its length; the next tick to evaluate and the first running tick; qualifiers, the armed LEVEL detectors by
condition, running timers; FORCE events by tick with the hop counts of what they fire; the first ticks after steps of
SYSTIME that are still to come; the state path and its length; records
closed since the arm; of the slot in course the samples collected, the POST samples written (none: no record
yet), the header, the sample (+ 1) that last had OVR, MISS and untraced timing, and the sample before the last step of
the grid (+ 1); whether
a FINAL state was entered and whether ACQ_ABORT waits; reduction windows; and of an upload the blocks
sent and stored, the host offset of block 0, and the header blocks to be copied again with the block count
that goes before. -/
structure CapSt where
  cfg    : CapCfg := {}
  prog   : List (Nat × Word) := []
  nst    : Nat := 0
  tick   : Nat := 0
  first  : Nat := 0
  quals  : List Nat := []
  rise   : Nat := 0
  fall   : Nat := 0
  trun   : Nat := 0
  forces : List (Nat × Nat) := []
  gaps   : List Nat := []
  path   : Nat := 0
  plen   : Nat := 0
  recs   : Nat := 0
  cnt    : Nat := 0
  post   : Option Nat := none
  head   : List Nat := []
  ovrAt  : Nat := 0
  missAt : Nat := 0
  untrAt : Nat := 0
  stepAt : Nat := 0
  final  : Bool := false
  abort  : Bool := false
  reds   : List RedAcc := []
  sent   : Nat := 0
  stored : Nat := 0
  upBase : Nat := 0
  again  : List (Nat × Nat) := []
  deriving DecidableEq, Repr

/-- Acquisition unit `n` beyond its registers: the tick index of LAST + 1 (0: no word yet), words left that carry
MISS while the filter settles, and the latest words by tick, newest first. -/
structure AUnit where
  next   : Nat := 0
  settle : Nat := 0
  hist   : List (Nat × Nat) := []
  deriving DecidableEq, Repr

/-- What the engines look back on: the units, the firings of event sources (source, SYSTIME, hop count), and the
applied levels of the Gyden lines and TRACEABLE with the SYSTIME from which they hold, newest first. -/
structure AcqSt where
  units  : List (Nat × AUnit) := []
  fired  : List (Nat × Nat × Nat) := []
  gev    : List (Nat × Nat) := []
  traced : List (Nat × Bool) := []
  deriving DecidableEq, Repr

/-! ## NVM and calibration -/

/-- One NOR operation: 2 program, 3 sector erase, 4 block erase (STATE.OP), address, bytes programmed. -/
structure NvmOp where
  kind : Nat
  addr : Nat
  data : List Byte
  deriving DecidableEq, Repr

/-- A run of NOR operations for one change: what it changes (1 unit record, 2 lane record, 3 profile,
4 image slot as NVM_WRITE's KIND; 5 boot record, 6 device record, 7 retired-page map, 8 calibration slot,
9 audit record), the object, class of R366 (2 safety, 1 host, 0 background), ring of the command (4: the
device's own) and which of the packets taken that is, the words of the change, those of the audit record it is entered with (none: not
audited), and whether PAC has not been asked (0), has queued the request (1) or has granted it (2). Kind 10
is a lane record of CAL_COMMIT. -/
structure NvmTx where
  kind : Nat
  obj  : Nat
  cls  : Nat
  ring : Nat
  id   : Nat
  info : List Nat
  audit : List Nat
  st   : Nat
  ops  : List NvmOp
  deriving DecidableEq, Repr

/-- The NOR: its bytes (an unlisted byte of an assigned area is erased), the changes in service order, when the
last operation ended; and the fuses of the CDIE: MINSVN and the hash of the key that signs images (R306). -/
structure NvmSt where
  bytes : List (Nat × Byte) := []
  txs   : List NvmTx := []
  idle  : Nat := 0
  minsvn : Nat := 0
  keyHash : List Word := (List.range 8).map Config.keyHash
  rr    : Nat := 0
  deriving DecidableEq, Repr

/-- A pending calibration result (R338, R344): the measured slots' quality figures, the tap or trim with the timing
residual, XDELAY, the eyes and taps of a lane cluster, the certified values and identifiers. -/
structure CalPend where
  slots  : List SlotResult := []
  tap    : Nat := 0
  timings : List Int := []
  xdelay : Nat := 0
  eyes   : List Nat := []
  taps   : List Nat := []
  refv   : Nat := 0
  resv   : Nat := 0
  refId  : Nat := 0
  resId  : Nat := 0
  deriving DecidableEq, Repr

/-- The inactive bank of a unit as its pending result left it: words by offset, and trims (R334, R338). -/
structure SavedBank where
  unit  : Nat
  bank  : Nat
  words : List (Nat × Word)
  trims : List Nat
  deriving DecidableEq, Repr

/-- A CAL_RUN in progress: its parameters, units still to do by region (4: lane clusters), the units being
measured with the output state each returns to, failures (unit, reason, slot), the results of the units that
passed, the regions whose grant is held, the units that dropped out, the lowest and highest cluster temperature seen at
each connected unit, the units that reached compliance on the path, and the pending banks that the run copies over. -/
structure CalRun where
  p      : List Word := []
  left   : List (List Nat) := []
  busy   : List (Nat × Nat) := []
  fails  : List (Nat × Nat × Nat) := []
  good   : List (Nat × UnitResult) := []
  grants : List Nat := []
  dropped : List Nat := []
  temps  : List (Nat × Int × Int) := []
  comp   : List Nat := []
  saved  : List SavedBank := []
  deriving DecidableEq, Repr

/-- Calibration beyond the registers: pending results by unit; trim codes (offset × 256 + gain) by
unit × 32 + bank × 8 + slot; the run; the active bank of each acquisition unit and those whose swap waits for a
tick; by unit the source of the correction in use (0 slot, 1 factory record, 2 none). -/
structure CalSt where
  pend  : List (Nat × Option CalPend) := []
  trims : List (Nat × Nat) := []
  run   : Option CalRun := none
  abank : List (Nat × Nat) := []
  aswap : List (Nat × Nat) := []
  src   : List (Nat × Nat) := []
  deriving DecidableEq, Repr

/-! ## The state -/

/-- The block: everything the spec gives the part. -/
structure Block where
  now     : Nat
  sysTime : Nat
  free    : Nat
  regs    : List (Nat × Word)
  act     : List (Nat × Word)
  flips   : List Flip
  linkQ   : List LinkWrite
  strobes : List Strobe
  hostIf  : HostIf
  cmd     : CmdSt
  groups  : List (Nat × Group)
  units   : List (Nat × UnitSt)
  lanes   : List (Nat × LaneSt)
  seqs    : List (Nat × SeqSt)
  sys     : SysSt
  fires   : List Firing
  event   : EventSt
  gyden   : GydenSt
  tables  : List (Nat × Word)
  tableUe : List (Nat × Nat × Nat × Nat)
  mem     : MemSt
  dramc   : DramSt
  caps    : List (Nat × CapSt)
  acq     : AcqSt
  nvm     : NvmSt
  cal     : CalSt
  clock   : ClockSt
  boot    : BootSt
  aon     : AonSt
  deriving DecidableEq, Repr

/-- The whole state: the block, and the steps that wait, first in, first out. -/
structure State extends Block where
  pending : List Instr
  deriving DecidableEq, Repr

/-- The block right after reset: no supply valid yet, every register at the value of the spec's Reset column (an
unlisted register reads that), every table empty, NVM erased (log entries 4, 8). -/
def Block.reset : Block where
  now := 0
  sysTime := 0
  free := 0
  regs := []
  act := []
  flips := []
  linkQ := []
  strobes := []
  hostIf := {}
  cmd := {}
  groups := []
  units := []
  lanes := []
  seqs := []
  sys := {}
  fires := []
  event := {}
  gyden := {}
  tables := []
  tableUe := []
  mem := {}
  dramc := {}
  caps := []
  acq := {}
  nvm := {}
  cal := {}
  clock := { untrAt := 1 }
  boot := {}
  aon := {}

/-- The machine right after reset: nothing waits. -/
def State.reset : State := { toBlock := Block.reset, pending := [] }

end Sys2Proof.Machine
end

