-- ==== Sys2Proof/Machine/Ops.lean ====
section
/-! DEFINITION. The named operations every meaning is written in: register fields, object numbering,
frame boundaries, free values. -/

namespace Sys2Proof.Machine

/-- What a happening does to the block. -/
abbrev Out := Host.Outcome Block Fault Refusal

/-- The block changes; the steps that wait stay. -/
def onBlock (s : State) (f : Block → Out) : Host.Outcome State Fault Refusal :=
  match f s.toBlock with
  | .next b => .next { s with toBlock := b }
  | .fault r => .fault r
  | .refused r => .refused r

/-- Run `r` for an object number below `n`; a happening of an object that does not exist stops. -/
def withIdx (n i : Nat) (r : Out) : Out := if i < n then r else .fault .noSuchObject

/-! ## Addresses (R75, R94, R164, R299, R327) -/

/-- The address given to a location of the indirect space of analogue die `die` (log entry 6). -/
def adieAdr (die off : Nat) : Nat := 0x1000000 * (die + 1) + off

/-- The block of unit number `u` of R299: P, D, A, LC. -/
def unitBase (u : Nat) : Nat :=
  if u < 48 then 0x20000 + u * 0x100
  else if u < 64 then 0x30000 + (u - 48) * 0x100
  else if u < 96 then 0x38000 + (u - 64) * 0x100
  else 0x3C000 + (u - 96) * 0x100

/-- The region of analogue unit number `u` (R10, Table 01-3). -/
def regionOf (u : Nat) : Nat :=
  if u < 48 then u / 12 else if u < 64 then (u - 48) / 4 else (u - 64) / 8

/-- The analogue cluster of P or D unit `u`: PC0–PC11 are 0–11, DC0–DC3 are 12–15 (R10). -/
def clusterOf (u : Nat) : Nat := if u < 48 then u / 4 else 12 + (u - 48) / 4

/-- The P and D units of analogue cluster `cl`. -/
def clusterUnits (cl : Nat) : List Nat :=
  let b := if cl < 12 then cl * 4 else 48 + (cl - 12) * 4
  [b, b + 1, b + 2, b + 3]

/-- The P and D units of region `i` (Table 01-3). -/
def regionUnits (i : Nat) : List Nat :=
  (List.range 12).map (· + 12 * i) ++ (List.range 4).map (· + 48 + 4 * i)

/-- The slot of P or D unit `u` on its die (R94, R164). -/
def dieSlot (u : Nat) : Nat := if u < 48 then u % 24 else 24 + (u - 48) % 8

/-- The die of unit `u`. -/
def dieOf (u : Nat) : Nat := regionOf u / 2

/-- The state record of P or D unit `u` (R94). -/
def strBase (u : Nat) : Nat := adieAdr (dieOf u) (0x50000 + dieSlot u * 0x40)

/-- The bridge record of P unit `u` (R75). -/
def brgBase (u : Nat) : Nat := adieAdr (dieOf u) (0x40000 + dieSlot u * 0x20)

/-- The synthesis record's slot registers of unit `u`, as an offset added to Table 07-6's (R164). -/
def synBase (u : Nat) : Nat := adieAdr (dieOf u) (0x60000 + dieSlot u * 0x10)

/-- The definition of the register whose offset is `o` in a block. -/
def findReg (l : List RegDef) (o : Nat) : Option RegDef :=
  l.find? (fun d => d.off == o)

/-- The registers of the single-instance blocks at `b` × 0x1000 (Table 14-3). -/
def blockRegs (b : Nat) : List RegDef :=
  match b with
  | 0 => regsGlobal
  | 1 => regsHostcmd
  | 2 => regsEvent
  | 3 => regsClock
  | 4 => regsPower
  | 5 => regsPatrol
  | 6 => regsCal
  | 7 => regsNvm
  | 8 => regsAon
  | 9 => regsGyden
  | 10 => regsDramc
  | 11 => regsMmu
  | _ => []

/-- The register at byte address `a` of BAR0 (R327), or of an analogue die's records; none where the
location is reserved (R315). -/
def regDef (a : Nat) : Option RegDef :=
  if a < 0xC000 then findReg (blockRegs (a / 0x1000)) (a % 0x1000)
  else if a < 0x10000 then none
  else if a < 0x11000 then findReg regsSeq (a % 0x100)
  else if a < 0x12000 then none
  else if a < 0x12400 then findReg regsTrack (a % 0x100)
  else if a < 0x20000 then none
  else if a < 0x23000 then findReg regsP (a % 0x100)
  else if a < 0x30000 then none
  else if a < 0x31000 then findReg regsD (a % 0x100)
  else if a < 0x38000 then none
  else if a < 0x3A000 then findReg regsA (a % 0x100)
  else if a < 0x3C000 then none
  else if a < 0x3C800 then findReg regsLc (a % 0x100)
  else if a < 0x1000000 then none
  else if 0x3000000 ≤ a then none
  else
    let o := a % 0x1000000
    if o < 0x40000 then none
    else if o < 0x40300 then findReg regsBrg (o % 0x20)
    else if o < 0x50000 then none
    else if o < 0x50800 then findReg regsStr (o % 0x40)
    else if o < 0x60000 then none
    else if o < 0x60100 then findReg regsSyn (o % 0x60000)
    else if o < 0x60300 then findReg regsSyn (0x100 + o % 0x10)
    else none

/-- The reset value of the register at `a` (the spec's Reset columns). -/
def resetWord (a : Nat) : Word :=
  match regDef a with
  | some d => Word.ofNat d.rst
  | none => 0

/-- The unit number (R299) of an address in the P, D, A or LC blocks. -/
def blockUnit (a : Nat) : Nat :=
  if a < 0x30000 then (a - 0x20000) / 0x100
  else if a < 0x38000 then 48 + (a - 0x30000) / 0x100
  else if a < 0x3C000 then 64 + (a - 0x38000) / 0x100
  else 96 + (a - 0x3C000) / 0x100

/-- The address lies in a unit's block of the P, D or A blocks, which stand on the CDIE for a region (R314). -/
def inRegion (a : Nat) : Bool := decide (0x20000 ≤ a) && decide (a < 0x3A000)

/-! ## The register file -/

/-- Unit, lane-cluster and die-record registers hold, beside the programmed word, the word in force. -/
def twoFold (a : Nat) : Bool := decide (0x20000 ≤ a)

/-- The word the hardware acts on. -/
def getW (s : Block) (a : Nat) : Word :=
  if twoFold a then Tbl.get resetWord s.act a else Tbl.get resetWord s.regs a

/-- The programmed word: the shadow of its buffered fields (R322). -/
def getP (s : Block) (a : Nat) : Word := Tbl.get resetWord s.regs a

/-- Change the bits of `mask` of the programmed word only. -/
def putP (s : Block) (a mask v : Nat) : Block :=
  let w := Word.ofNat (mergeMask (getP s a).toNat v mask)
  { s with regs := Tbl.set resetWord s.regs a w }

/-- Change the bits of `mask` of the word in force only. -/
def putA (s : Block) (a mask v : Nat) : Block :=
  let w := Word.ofNat (mergeMask (Tbl.get resetWord s.act a).toNat v mask)
  if twoFold a then { s with act := Tbl.set resetWord s.act a w } else s

/-- A change by the hardware: both words. -/
def putM (s : Block) (a mask v : Nat) : Block := putA (putP s a mask v) a mask v

/-- The value in force of a field. -/
def getF (s : Block) (f : Fld) : Nat := bits (getW s f.adr) f.hi f.lo

/-- The programmed value of a field. -/
def getPF (s : Block) (f : Fld) : Nat := bits (getP s f.adr) f.hi f.lo

/-- The value in force of a one-bit field. -/
def flag (s : Block) (f : Fld) : Bool := getF s f != 0

/-- A field set by the hardware. -/
def setF (s : Block) (f : Fld) (v : Nat) : Block := putM s f.adr (maskOf f.hi f.lo) (v <<< f.lo)

/-- A one-bit field set by the hardware. -/
def setB (s : Block) (f : Fld) (b : Bool) : Block := setF s f (b2n b)

/-- A write stores all three copies of the triplicated bits it writes (R319): on the side of the shadow, or of the
value in use. -/
def unflip (s : Block) (a mask : Nat) (shadow : Bool) : Block :=
  { s with flips := s.flips.filter (fun f => !(f.adr == a && f.shadow == shadow && mask.testBit f.bit)) }

/-- A field of triplicated bits written by the hardware: all three copies (R319). -/
def setCopies (s : Block) (f : Fld) (v : Nat) : Block :=
  unflip (unflip (setF s f v) f.adr (maskOf f.hi f.lo) false) f.adr (maskOf f.hi f.lo) true

/-- The core cycle of 5 ns at present (R313). -/
def cycleOf (s : Block) : Nat := floorTo s.sysTime 5

/-- What the hardware has written in this cycle, nothing in a new one (R326). -/
def hwNow (s : Block) : HostIf :=
  if s.hostIf.hwAt = cycleOf s + 1 then s.hostIf else { s.hostIf with hwAt := cycleOf s + 1, hwSet := [], hwMax := [] }

/-- A status flag raised by the hardware, noted for a host's write in the same cycle (R326). -/
def raise (s : Block) (f : Fld) : Block :=
  let h := hwNow s
  setF { s with hostIf := { h with hwSet := (f.adr, maskOf f.hi f.lo) :: h.hwSet } } f 1

/-- The bits of the register at `a` that the hardware has raised in this cycle: they stay set (R326). -/
def raisedNow (s : Block) (a : Nat) : Nat :=
  ((hwNow s).hwSet.filter (fun x => x.1 == a)).foldl (fun m x => m ||| x.2) 0

/-- A host writes the register at `a` in this cycle: what it held before is kept for what goes by the state before the
cycle (R57, R162, R177, R223). -/
def noteWrite (s : Block) (a : Nat) : Block :=
  let h := s.hostIf
  let l := if h.cycleAt = cycleOf s + 1 then h.cycleWr else []
  let l := if l.any (fun p => p.1 == a) then l else (a, getP s a) :: l
  { s with hostIf := { h with cycleAt := cycleOf s + 1, cycleWr := l } }

/-- The programmed word before this cycle, where a host has written the register at `a` in it. -/
def writtenNow (s : Block) (a : Nat) : Option Word :=
  if s.hostIf.cycleAt = cycleOf s + 1 then (s.hostIf.cycleWr.find? (fun p => p.1 == a)).map (·.2) else none

/-- A counter that wraps. -/
def incF (s : Block) (f : Fld) : Block := setF s f (getF s f + 1)

/-- A counter that wraps, increased by `n`. -/
def addF (s : Block) (f : Fld) (n : Nat) : Block := setF s f (getF s f + n)

/-- A counter that saturates. -/
def incSat (s : Block) (f : Fld) : Block :=
  setF s f (satU (f.hi + 1 - f.lo) (getF s f + 1))

/-- The larger of a field and a sample. -/
def maxPut (s : Block) (f : Fld) (v : Nat) : Block :=
  if getF s f < v then setF s f (satU (f.hi + 1 - f.lo) v) else s

/-- A maximum-hold field takes a sample, noted for a host's write in the same cycle (R326). -/
def maxF (s : Block) (f : Fld) (v : Nat) : Block :=
  let h := hwNow s
  maxPut { s with hostIf := { h with hwMax := (f.adr, f.hi, f.lo, v) :: h.hwMax } } f v

/-- The samples of this cycle are compared again after a host's write of the register at `a` (R326). -/
def maxAgain (s : Block) (a : Nat) : Block :=
  ((hwNow s).hwMax.filter (fun x => x.1 == a)).foldl (fun s x => maxPut s ⟨x.1, x.2.1, x.2.2.1⟩ x.2.2.2) s

/-- A 64-bit (or narrower) value into its low and high registers. -/
def set64 (s : Block) (lo hi : Fld) (v : Nat) : Block := setF (setF s lo v) hi (v >>> 32)

/-- The same from a low and high register. -/
def get64 (s : Block) (lo hi : Fld) : Nat := getF s lo + (getF s hi) <<< 32

/-- Apply `f` for each element in turn. -/
def forEach {α : Type} (l : List α) (s : Block) (f : Block → α → Block) : Block := l.foldl f s

/-! ## Free values -/

/-- The free value of the next number, as a number below 2^`n`. -/
def freeNat (s : Block) (n : Nat) : Nat := (Config.freeValue s.free).toNat % 2 ^ n

/-- The number is used. -/
def useFree (s : Block) : Block := { s with free := s.free + 1 }

/-! ## Groups, units and their frames -/

/-- Group `n`. -/
def group (s : Block) (n : Nat) : Group := Tbl.get (fun _ => ({} : Group)) s.groups n

/-- Group `n` redefined. -/
def setGroup (s : Block) (n : Nat) (g : Group) : Block :=
  { s with groups := Tbl.set (fun _ => ({} : Group)) s.groups n g }

/-- Unit `u`. -/
def unit (s : Block) (u : Nat) : UnitSt := Tbl.get (fun _ => ({} : UnitSt)) s.units u

/-- Unit `u` changed. -/
def setUnit (s : Block) (u : Nat) (x : UnitSt) : Block :=
  { s with units := Tbl.set (fun _ => ({} : UnitSt)) s.units u x }

/-- Lane cluster `c`. -/
def lane (s : Block) (c : Nat) : LaneSt := Tbl.get (fun _ => ({} : LaneSt)) s.lanes c

/-- Lane cluster `c` changed. -/
def setLane (s : Block) (c : Nat) (x : LaneSt) : Block :=
  { s with lanes := Tbl.set (fun _ => ({} : LaneSt)) s.lanes c x }

/-- Sequencer `n`. -/
def seqr (s : Block) (n : Nat) : SeqSt := Tbl.get (fun _ => ({} : SeqSt)) s.seqs n

/-- Sequencer `n` changed. -/
def setSeq (s : Block) (n : Nat) (x : SeqSt) : Block :=
  { s with seqs := Tbl.set (fun _ => ({} : SeqSt)) s.seqs n x }

/-- A field of sequencer `n`'s block. -/
def qF (n : Nat) (f : Fld) : Fld := f.at (0x10000 + n * 0x100)

/-- A field of lane cluster `c`'s block. -/
def lF (c : Nat) (f : Fld) : Fld := f.at (0x3C000 + c * 0x100)

/-- A field of acquisition unit `n`'s block. -/
def aF (n : Nat) (f : Fld) : Fld := f.at (0x38000 + n * 0x100)

/-- A field of capture engine `t`'s block. -/
def tF (t : Nat) (f : Fld) : Fld := f.at (0x12000 + t * 0x100)

/-- A firing of source `src` handed to the router (R208, R209), not before `due`. -/
def fire (s : Block) (src hop due : Nat) : Block := { s with fires := s.fires ++ [⟨src, hop, due⟩] }

/-- A firing caused by a delivery on `sink`; with a hop count of 8 it is discarded (R217). -/
def fireBy (s : Block) (src hop due sink : Nat) : Block :=
  if 8 ≤ hop then
    let s := incF (raise s F.EVENT_STATUS_EVR_LOOP) F.EVENT_HOPDROP_COUNT
    setF (setF s F.EVENT_LOOP_SRC src) F.EVENT_LOOP_SINK sink
  else fire s src hop due

/-- A field of unit `u`'s block. -/
def uF (u : Nat) (f : Fld) : Fld := f.at (unitBase u)

/-- A field of unit `u`'s state record. -/
def strF (u : Nat) (f : Fld) : Fld := f.at (strBase u)

/-- The frame period of a group in ns (R12). -/
def groupT (g : Group) : Nat := if g.lane then 5 * g.div else 800 * g.div

/-- The group a P, D unit or lane cluster (by unit number) belongs to (R11). -/
def groupOf (s : Block) (u : Nat) : Option Nat :=
  let st := if u < 96 then uF u F.P_STATE_IN_GROUP else uF u F.LC_STATE_IN_GROUP
  let g := if u < 96 then uF u F.P_STATE_GROUP else uF u F.LC_STATE_GROUP
  if flag s st then some (getF s g) else none

/-- The frame period of an analogue cluster: that of its grouped members, else 800 ns (R13, R56). -/
def clusterT (s : Block) (cl : Nat) : Nat :=
  match (clusterUnits cl).filterMap (groupOf s) with
  | g :: _ => groupT (group s g)
  | [] => 800

/-- The frame period of P, D unit or lane cluster `u` (R16, R56). -/
def unitT (s : Block) (u : Nat) : Nat :=
  if u < 96 then clusterT s (clusterOf u)
  else match groupOf s u with
    | some g => groupT (group s g)
    | none => 800

/-- The first f_M edge at or after now (R323): f_M edges lie at SYSTIME multiples of 25 ns (R241). -/
def nextEdge (s : Block) : Nat := ceilTo s.sysTime 25

/-- The first frame boundary of `u` at or after `t`: boundaries lie at SYSTIME multiples of the frame
period (R16, R130, R241). -/
def boundary (s : Block) (u t : Nat) : Nat := ceilTo t (unitT s u)

/-- LAT_FRAMES of P or D unit `u` (R55). -/
def latFrames (s : Block) (u : Nat) : Nat :=
  let t := unitT s u
  (8000 + t - 1) / t + (if getF s (uF u F.P_CTRL_INTERP) == 1 && 800 < t then 1 else 0)

/-- The latency registers of a unit show its rate and INTERP (R56). -/
def unitLatency (s : Block) (u : Nat) : Block :=
  let l := latFrames s u
  setF (setF s (uF u F.P_LAT_FRAMES_FRAMES) l) (uF u F.P_LAT_NS_NS) (l * unitT s u)

/-- STATE.LAT of lane cluster `c` in frames (R16, R173). -/
def laneLat (s : Block) (c : Nat) : Nat :=
  match groupOf s (96 + c) with
  | none => 1
  | some g =>
    let gr := group s g
    if gr.mask = 0 then (40 + groupT gr - 1) / groupT gr
    else if flag s (lF c F.LC_CTRL_ALIGN) then
      (bitList gr.mask 64).foldl (fun n u => max n (latFrames s u)) 1
    else 1

/-- STATE.LAT of every cluster follows its group. -/
def syncLaneLat (s : Block) : Block :=
  forEach (List.range 8) s (fun s c => setF s (lF c F.LC_STATE_LAT) (laneLat s c))

/-- The latency registers of a unit, and STATE.LAT of the lane clusters of its group, follow its rate and INTERP
(R16, R56, R173). -/
def syncLatency (s : Block) (u : Nat) : Block :=
  let s := unitLatency s u
  match groupOf s u with
  | none => s
  | some g => forEach (bitList (group s g).lcmask 8) s (fun s c => setF s (lF c F.LC_STATE_LAT) (laneLat s c))

/-- The members of group `n`: P and D units, then lane clusters, by unit number (R299). -/
def members (s : Block) (n : Nat) : List Nat :=
  bitList (group s n).mask 64 ++ (bitList (group s n).lcmask 8).map (· + 96)

/-- Supply `i` is below its threshold (R367). -/
def supplyLow (s : Block) (i : Nat) : Bool := decide (s.now < Tbl.get (fun _ => 0) s.boot.lowTill i)

end Sys2Proof.Machine
end

