-- ==== Sys2Proof/Machine/Levels.lean ====
section
/-! DEFINITION. Gate levels (R211) and the EVOUT pins that follow them (R221). -/

namespace Sys2Proof.Machine

/-- A field of EVOUT `n`. -/
def evoF (n : Nat) (f : Fld) : Fld := f.at (4 * n)

/-- GLSEL's choice for gate level 28 + `i`. -/
def glSel (s : Block) (i : Nat) : Nat := bits (getW s R.EVENT_GLSEL) (8 * i + 4) (8 * i)

/-- Gate level `g` as it stands (Table 10-3). -/
def gateLevel (s : Block) (g : Nat) : Bool :=
  if g < 8 then s.event.evin.testBit g
  else if g < 16 then (getF s F.GYDEN_GEVLVL_APPLIED).testBit (g - 8)
  else if g < 24 then (getF s F.AON_CMP_STATE_LEVEL).testBit (g - 16)
  else if g < 28 then flag s (tF (g - 24) F.TRACK_STATE_OUT)
  else
    let k := glSel s (g - 28)
    if k < 16 then getF s (qF k F.SEQ_STATE_SSTATE) == 3
    else if k < 24 then (getF s (lF 7 F.LC_INCFG_LEVEL)).testBit (k - 16)
    else k == 25

/-- The 32 gate levels as a word. -/
def gateWord (s : Block) : Nat := (List.range 32).foldl (fun n g => n + b2n (gateLevel s g) * 2 ^ g) 0

/-- The level of EVOUT `n`'s pin (R221). -/
def evoutPin (s : Block) (n : Nat) : Bool :=
  let on := match getF s (evoF n F.EVENT_EVOUT0_MODE) with
    | 0 => (getF s F.EVENT_EVOUT_STAT_ACTIVE).testBit n
    | 1 => s.event.tog.testBit n
    | 2 => gateLevel s (getF s (evoF n F.EVENT_EVOUT0_LSRC))
    | _ => flag s (evoF n F.EVENT_EVOUT0_VAL)
  on != flag s (evoF n F.EVENT_EVOUT0_POL)

/-- The pins as EVOUT_STAT shows them. -/
def syncEvout (s : Block) : Block :=
  setF s F.EVENT_EVOUT_STAT_PIN ((List.range 8).foldl (fun n k => n + b2n (evoutPin s k) * 2 ^ k) 0)

/-- What is kept of gate level `g`, which now reads `new` and read `old`, at SYSTIME `t`: since when (+ 1) it reads 1, and
of one that has fallen when it fell and since when (+ 1) it had read 1. A low that no f_M edge falls in is read on none, so
the level counts as high throughout (R140). -/
def noteLevel (t : Nat) (e : EventSt) (g : Nat) (old new : Bool) : EventSt :=
  let a := Tbl.get (fun _ => 0) e.since g
  let d := Tbl.get (fun _ => (0, 0)) e.dips g
  let since := fun n => Tbl.set (fun _ => 0) e.since g n
  let dips := fun x => Tbl.set (fun _ => (0, 0)) e.dips g x
  if new == old then e
  else if new then { e with since := since (if d.2 != 0 && decide (t ≤ ceilTo d.1 25) then d.2 else t + 1), dips := dips (0, 0) }
  else { e with since := since 0, dips := dips (t, a) }

/-- GLEVEL follows the gate levels; what it read as this router cycle began is kept (R211). -/
def syncLevels (s : Block) : Block :=
  let new := gateWord s
  let old := getF s F.EVENT_GLEVEL_LVL
  let ev := (List.range 32).foldl (fun e g => noteLevel s.sysTime e g (old.testBit g) (new.testBit g)) s.event
  let ev := if old = new || ev.lvlAt = cycleOf s + 1 then ev else { ev with lvlAt := cycleOf s + 1, lvlOld := old }
  syncEvout (setF { s with event := ev } F.EVENT_GLEVEL_LVL new)

/-- The gate levels as sampled at the start of this router cycle (R211). -/
def levelsThen (s : Block) : Nat :=
  if s.event.lvlAt = cycleOf s + 1 then s.event.lvlOld else getF s F.EVENT_GLEVEL_LVL

/-- Gate level `g` has read 1 on every f_M edge of the 5,000 ns before the frame boundary `t` (R140). -/
def levelHeld (s : Block) (g t : Nat) : Bool :=
  let a := Tbl.get (fun _ => 0) s.event.since g
  let d := Tbl.get (fun _ => (0, 0)) s.event.dips g
  (a != 0 && decide (a + 4999 ≤ t)) || (d.2 != 0 && decide (d.2 + 4999 ≤ t) && decide (t ≤ ceilTo d.1 25))

end Sys2Proof.Machine
end

