-- ==== Sys2Proof/Machine/Cmd.lean ====
section
/-! DEFINITION. The command path (R284 to R297, R304): taking a packet from a ring, its checks, the
completion of a command, waiting commands. -/

namespace Sys2Proof.Machine

/-! ## Status codes (Table 13-4) -/

abbrev Sts.ok : Nat := 0x00
abbrev Sts.partially : Nat := 0x01
abbrev Sts.aborted : Nat := 0x02
abbrev Sts.badOpcode : Nat := 0x10
abbrev Sts.badLength : Nat := 0x11
abbrev Sts.badParam : Nat := 0x12
abbrev Sts.state : Nat := 0x20
abbrev Sts.busy : Nat := 0x21
abbrev Sts.activeSegment : Nat := 0x22
abbrev Sts.noMemory : Nat := 0x23
abbrev Sts.depth : Nat := 0x2D
abbrev Sts.powerDenied : Nat := 0x30
abbrev Sts.powerTimeout : Nat := 0x31
abbrev Sts.calImplausible : Nat := 0x40
abbrev Sts.calRefMissing : Nat := 0x41
abbrev Sts.nvmFail : Nat := 0x42
abbrev Sts.dramFrozen : Nat := 0x50
abbrev Sts.trainFail : Nat := 0x51
abbrev Sts.pllUnlocked : Nat := 0x60
abbrev Sts.internal : Nat := 0x7F

/-! ## Opcodes (Table 13-2) -/

abbrev Op.modeSet : Nat := 0x08
abbrev Op.segCreate : Nat := 0x10
abbrev Op.segFree : Nat := 0x11
abbrev Op.segOpen : Nat := 0x13
abbrev Op.liftSubmit : Nat := 0x15
abbrev Op.segCompact : Nat := 0x16
abbrev Op.stepsWrite : Nat := 0x21
abbrev Op.seqArm : Nat := 0x22
abbrev Op.seqStart : Nat := 0x23
abbrev Op.seqStop : Nat := 0x24
abbrev Op.seqJump : Nat := 0x25
abbrev Op.unitConfig : Nat := 0x30
abbrev Op.unitRange : Nat := 0x31
abbrev Op.unitEnable : Nat := 0x32
abbrev Op.unitDisable : Nat := 0x33
abbrev Op.tableLoad : Nat := 0x34
abbrev Op.tableSwap : Nat := 0x35
abbrev Op.acqArm : Nat := 0x42
abbrev Op.acqAbort : Nat := 0x43
abbrev Op.acqReadout : Nat := 0x44
abbrev Op.calRun : Nat := 0x50
abbrev Op.calCommit : Nat := 0x51
abbrev Op.nvmRead : Nat := 0x58
abbrev Op.nvmWrite : Nat := 0x59
abbrev Op.auditRead : Nat := 0x5A
abbrev Op.dramTrain : Nat := 0x60
abbrev Op.dramFreq : Nat := 0x61
abbrev Op.dramResume : Nat := 0x62
abbrev Op.pllConfig : Nat := 0x68
abbrev Op.pllRelock : Nat := 0x69
abbrev Op.gydenConfig : Nat := 0x70
abbrev Op.gydenMeasure : Nat := 0x71
abbrev Op.pacReserve : Nat := 0x78
abbrev Op.microcodeReload : Nat := 0x7E
abbrev Op.resumeFromSafe : Nat := 0xF2

/-- The assigned opcodes (Table 13-2). -/
def assignedOps : List Nat :=
  [0x00, 0x01, 0x02, 0x08, 0x09, 0x10, 0x11, 0x12, 0x13, 0x14, 0x15, 0x16, 0x20, 0x21, 0x22, 0x23,
   0x24, 0x25, 0x30, 0x31, 0x32, 0x33, 0x34, 0x35] ++
  [0x40, 0x41, 0x42, 0x43, 0x44, 0x50, 0x51, 0x52, 0x58, 0x59, 0x5A, 0x60, 0x61, 0x62, 0x68, 0x69,
   0x70, 0x71, 0x78, 0x79, 0x7E, 0xF0, 0xF1, 0xF2]

/-- The commands marked abortable in Table 13-2. -/
def abortable (op : Nat) : Bool :=
  [0x10, 0x13, 0x15, 0x16, 0x21, 0x23, 0x24, 0x31, 0x32, 0x33, 0x34, 0x42, 0x44, 0x50, 0x58, 0x5A,
   0x78].contains op

/-! ## Rings -/

/-- A field of submission ring `r` (R310). -/
def sqF (r : Nat) (f : Fld) : Fld := f.at (r * 0x20)

/-- Words in submission ring `r` (R286). -/
def sqSize (s : Block) (r : Nat) : Nat := 2 ^ getF s (sqF r F.HOSTCMD_SQ0_CFG_LOG2)

/-- Words between HEAD and TAIL. -/
def sqAvail (s : Block) (r : Nat) : Nat :=
  let n := sqSize s r
  (getF s (sqF r F.HOSTCMD_SQ0_TAIL_IDX) + n - getF s (sqF r F.HOSTCMD_SQ0_HEAD_IDX)) % n

/-- Ring `r` lies in the command window (R284, R285: "on an SPI host"). -/
def inWindow (s : Block) (r : Nat) : Bool := flag s (sqF r F.HOSTCMD_SQ0_CFG_LOC)

/-- The command of ring `r` that is in progress. -/
def inProgress (s : Block) (r : Nat) : Option Job :=
  s.cmd.jobs.find? (fun j => j.h.ring == r && decide (j.phase = .inProgress))

/-- The commands that wait. -/
def waitingJobs (s : Block) : List Job := s.cmd.jobs.filter (fun j => decide (j.phase = .waiting))

/-- The job list and the counts that HOSTCMD.STATE shows of it. -/
def setJobs (s : Block) (l : List Job) : Block :=
  let s := { s with cmd := { s.cmd with jobs := l } }
  let ip := (List.range 4).foldl (fun a r => a + b2n (inProgress s r).isSome * 2 ^ r) 0
  setF (setF s F.HOSTCMD_STATE_INPROG ip) F.HOSTCMD_STATE_WAITING (waitingJobs s).length

/-- MSI-X vector `v` raised, over a PCIe link that is up (R291). -/
def msixRaise (s : Block) (v : Nat) : Block :=
  let m := s.cmd.msix
  if !s.boot.pcieUp then s
  else { s with cmd := { s.cmd with msix := Tbl.set (fun _ => 0) m v (Tbl.get (fun _ => 0) m v + 1) } }

/-- HOSTCMD.STATUS flag `f` set, and the error interrupt raised (R291). -/
def cmdStatus (s : Block) (f : Fld) : Block :=
  let s := raise (raise s f) F.HOSTCMD_IRQ_STAT_ERR_PEND
  msixRaise s (getF s F.HOSTCMD_IRQ_CFG_ERR_VEC)

/-! ## Memory of the host and of the window -/

/-- Bytes written from address `a` up. -/
def putBytes (m : List (Nat × Byte)) (a : Nat) : List Byte → List (Nat × Byte)
  | [] => m
  | b :: t => putBytes (Tbl.set (fun _ => 0) m a b) (a + 1) t

/-- The bytes of a list of words. -/
def wordsBytes (l : List Word) : List Byte := l.flatMap wordBytes

/-- A command's data may go to `a`: in the window it may not pass the end (R285). -/
def destOk (s : Block) (h : Hdr) (a n : Nat) : Bool := !inWindow s h.ring || decide (a + n ≤ 0x10000)

/-- Data returned to the host: to host memory, or, of a window ring, into the window (R285). -/
def toHost (s : Block) (h : Hdr) (a : Nat) (l : List Byte) : Block :=
  if inWindow s h.ring then { s with cmd := { s.cmd with window := putBytes s.cmd.window a l } }
  else { s with cmd := { s.cmd with hostMem := putBytes s.cmd.hostMem a l } }

/-! ## Completions (R289 to R291, R304) -/

/-- CQ_HEAD as the device sees it: one written in this cycle counts from the next (Table 13-6). -/
def cqHead (s : Block) : Nat :=
  match writtenNow s R.HOSTCMD_CQ_HEAD with
  | some w => bits w 15 0
  | none => getF s F.HOSTCMD_CQ_HEAD_IDX

/-- The completion ring has room: CQ_TAIL + 1 is not CQ_HEAD modulo the size (R290). -/
def cqRoom (s : Block) : Bool :=
  let n := 2 ^ getF s F.HOSTCMD_CQ_CFG_LOG2
  flag s F.HOSTCMD_CQ_CFG_EN && (getF s F.HOSTCMD_CQ_TAIL_IDX + 1) % n != cqHead s % n

/-- The four words of an entry (R289). -/
def entryWords (s : Block) (c : Completion) : List Word :=
  [Word.ofNat (c.h.tag + c.h.ring * 2 ^ 8 + c.op * 2 ^ 16 + b2n s.cmd.phase * 2 ^ 31),
   Word.ofNat (c.status + (c.detail % 2 ^ 16) * 2 ^ 16), Word.ofNat c.steps, Word.ofNat c.result]

/-- An entry written at CQ_TAIL, with the interrupts of R291. -/
def writeEntry (s : Block) (c : Completion) : Block :=
  let n := 2 ^ getF s F.HOSTCMD_CQ_CFG_LOG2
  let t := getF s F.HOSTCMD_CQ_TAIL_IDX
  let base := getF s F.HOSTCMD_CQ_BASE_LO_ADDR
  let bytes := wordsBytes (entryWords s c)
  let s :=
    if flag s F.HOSTCMD_CQ_CFG_LOC then
      { s with cmd := { s.cmd with window := putBytes s.cmd.window (base + 16 * t) bytes } }
    else
      let a := base + getF s F.HOSTCMD_CQ_BASE_HI_ADDR * 2 ^ 32 + 16 * t
      { s with cmd := { s.cmd with hostMem := putBytes s.cmd.hostMem a bytes } }
  let s := setF s F.HOSTCMD_CQ_TAIL_IDX ((t + 1) % n)
  let s := if t + 1 = n then { s with cmd := { s.cmd with phase := !s.cmd.phase } } else s
  let cnt := s.cmd.coalCnt + 1
  let s := { s with cmd := { s.cmd with coalCnt := cnt,
                                        coalFrom := if cnt = 1 then s.now else s.cmd.coalFrom } }
  if c.h.flags.testBit 1 || decide (max 1 (getF s F.HOSTCMD_IRQ_CFG_COAL_CNT) ≤ cnt) then
    let s := raise { s with cmd := { s.cmd with coalCnt := 0 } } F.HOSTCMD_IRQ_STAT_CPL_PEND
    msixRaise s (getF s F.HOSTCMD_IRQ_CFG_CPL_VEC)
  else s

/-- Held completions posted in order while the ring has room, `fuel` of them at most (R290). -/
def flushHeld : Nat → Block → Block
  | 0, s => s
  | k + 1, s =>
    match s.cmd.held with
    | [] => s
    | c :: t =>
      if cqRoom s then
        let s := writeEntry { s with cmd := { s.cmd with held := t } } c
        flushHeld k (setF s F.HOSTCMD_STATE_CPL_HELD (min 64 t.length))
      else s

/-- An entry posted, or held while the ring is full (R290). -/
def postEntry (s : Block) (c : Completion) : Block :=
  if s.cmd.held.isEmpty && cqRoom s then writeEntry s c
  else
    let l := s.cmd.held ++ [c]
    let s := cmdStatus { s with cmd := { s.cmd with held := l } } F.HOSTCMD_STATUS_CPL_HELD
    setF s F.HOSTCMD_STATE_CPL_HELD (min 64 l.length)

/-- The counters of a command that completes (R304, Table 13-10). -/
def countCmd (s : Block) (c : Completion) : Block :=
  let s := incF s F.HOSTCMD_CMD_COUNT_COUNT
  if c.status ≤ Sts.partially then s
  else
    let s := incF s F.HOSTCMD_ERR_COUNT_COUNT
    let s := setF s F.HOSTCMD_LAST_ERR_OPCODE c.op
    let s := setF s F.HOSTCMD_LAST_ERR_RING c.h.ring
    let s := setF s F.HOSTCMD_LAST_ERR_TAG c.h.tag
    setF s F.HOSTCMD_LAST_ERR_STATUS c.status

/-- A command completes (R289, R290, R304): the counters, and the entry unless QUIET suppresses it. -/
def complete (s : Block) (c : Completion) : Block :=
  let s := countCmd s c
  if c.status = Sts.ok && c.h.flags.testBit 2 then s else postEntry s c

/-- A job changed in place. -/
def putJob (s : Block) (j k : Job) : Block :=
  { s with cmd := { s.cmd with jobs := s.cmd.jobs.map (fun x => if x = j then k else x) } }

/-- What packet number `id` wrote over needs no keeping any more. -/
def forgetUndo (s : Block) (id : Nat) : Block :=
  { s with mem := { s.mem with undo := s.mem.undo.filter (fun u => u.1 != id) } }

/-- What the running step writes over is kept. -/
def noteUndo (s : Block) (l : List Undo) : Block :=
  { s with mem := { s.mem with undo := l.map (fun u => (s.cmd.cur, u)) ++ s.mem.undo } }

/-- A job leaves the list (the first with its packet, opcode and number) and completes as `j` says; what it wrote over needs
no keeping any more. -/
def endJob (s : Block) (j : Job) (status detail : Nat) : Block :=
  let s := setJobs s (s.cmd.jobs.eraseP (fun k => k.h == j.h && k.op == j.op && k.id == j.id))
  let s := forgetUndo s j.id
  let c : Completion := ⟨j.h, j.op, status, detail, j.steps, j.result⟩
  if j.mute then countCmd s c else complete s c

/-! ## Arbitration (R293) -/

/-- The device can read ring `r`: in the window, or over a PCIe link that is up. -/
def ringReadable (s : Block) (r : Nat) : Bool := inWindow s r || s.boot.pcieUp

/-- Word `i` from HEAD on of ring `r` in the command window (R285, R286). -/
def ringWord (s : Block) (r i : Nat) : Word :=
  let k := (getF s (sqF r F.HOSTCMD_SQ0_HEAD_IDX) + i) % sqSize s r
  let a := getF s (sqF r F.HOSTCMD_SQ0_BASE_LO_ADDR) + 4 * k
  Word.ofNat (bytesNat ((List.range 4).map (fun j => Tbl.get (fun _ => (0 : Byte)) s.cmd.window (a + j))))

/-- The header at HEAD of ring `r`, where it is known: what the window holds, or, of a ring in host memory, what the
microengine has read there (log entry 7). -/
def nextHeader (s : Block) (r : Nat) : Option Word :=
  if sqAvail s r = 0 then none
  else if inWindow s r then some (ringWord s r 0)
  else (s.cmd.peeked.find? (fun x => x.1 == r)).map (·.2)

/-- What was read at HEAD of ring `r` no longer stands there. -/
def clearPeek (s : Block) (r : Nat) : Block :=
  { s with cmd := { s.cmd with peeked := s.cmd.peeked.filter (fun x => x.1 != r) } }

/-- The header `w` read at HEAD of ring `r` in host memory. -/
def notePeek (s : Block) (r : Nat) (w : Word) : Block :=
  if inWindow s r || (nextHeader s r).isSome then s
  else { s with cmd := { s.cmd with peeked := s.cmd.peeked ++ [(r, w)] } }

/-- A packet with header `w` can start on ring `r` as far as the ring goes: all of it lies before TAIL, and a FENCE finds no
command of the ring (R286, R292). A malformed length is a ring error, for which the header does (R288). -/
def startable (s : Block) (r : Nat) (w : Word) : Bool :=
  let n := bits w 15 8
  n == 0 || decide (64 < n) ||
    (decide (n ≤ sqAvail s r) && !(w.getLsbD 0 && s.cmd.jobs.any (fun j => j.h.ring == r)))

/-- Ring `r` has a step to take: a command in progress, or a packet that can start; one whose header has not been read yet
is taken to be such a packet (log entry 7). -/
def ringWork (s : Block) (r : Nat) : Bool :=
  (inProgress s r).isSome ||
    (flag s (sqF r F.HOSTCMD_SQ0_CFG_EN) && ringReadable s r && sqAvail s r != 0 &&
      match nextHeader s r with
      | none => true
      | some w => startable s r w)

/-- The weight of NORMAL0 or NORMAL1; 0 acts as 1 (Table 13-8). -/
def arbWeight (s : Block) (r : Nat) : Nat :=
  max 1 (getF s (if r = 1 then F.HOSTCMD_ARB_W0 else F.HOSTCMD_ARB_W1))

/-- BACKGROUND has gone BG_MIN µs without a step and has one to take: it takes the next, before every other ring (R293). -/
def bgFirst (s : Block) : Bool := s.cmd.bgDue && ringWork s 3

/-- The microengine may take ring `r`'s step at this boundary (R293). -/
def mayStep (s : Block) (r : Nat) : Bool :=
  match r with
  | 0 => !bgFirst s
  | 1 => !ringWork s 0 && !bgFirst s && (s.cmd.arbRing == 1 || !ringWork s 2)
  | 2 => !ringWork s 0 && !bgFirst s && (s.cmd.arbRing == 2 || !ringWork s 1)
  | _ => bgFirst s || (!ringWork s 0 && !ringWork s 1 && !ringWork s 2)

/-- The round-robin pointer and the BACKGROUND timer after a step of ring `r`, and the pre-emption count
where a command of another ring gives way (R293, R296). -/
def tookStep (s : Block) (r : Nat) : Block :=
  let other := (List.range 4).any (fun q => q != r && (inProgress s q).isSome &&
    flag s F.HOSTCMD_CUR_VALID && getF s F.HOSTCMD_CUR_RING == q)
  let s := if other then incF s F.HOSTCMD_PREEMPT_COUNT else s
  if r = 3 then { s with cmd := { s.cmd with bgLast := s.now, bgDue := false } }
  else if r = 0 then s
  else
    let left := (if s.cmd.arbRing = r then s.cmd.arbLeft else arbWeight s r) - 1
    if left = 0 then
      { s with cmd := { s.cmd with arbRing := 3 - r, arbLeft := arbWeight s (3 - r) } }
    else { s with cmd := { s.cmd with arbRing := r, arbLeft := left } }

/-! ## Running a command -/

/-- What a command's first step comes to: it completes (state, status, DETAIL, STEPS, RESULT); it waits
(state, what for, deadline, RESULT); or it has more steps (state, steps done, RESULT so far, the rest). -/
inductive CmdRes where
  | done (s : Block) (status detail steps result : Nat)
  | wait (s : Block) (todo : List Nat) (due : Nat) (result : Nat)
  | more (s : Block) (steps result : Nat) (todo : List Nat)

/-- Completed at once with nothing changed. -/
def CmdRes.fail (s : Block) (status : Nat) : CmdRes := .done s status 0 1 0

/-- Completed at once with nothing changed, and a DETAIL. -/
def CmdRes.failD (s : Block) (status detail : Nat) : CmdRes := .done s status detail 1 0

/-- Completed OK in one step. -/
def CmdRes.okay (s : Block) : CmdRes := .done s Sts.ok 0 1 0

/-- Parameter word `i` of a packet (word 0 is the header). -/
def pw (p : List Word) (i : Nat) : Nat := (p.getD (i - 1) 0).toNat

/-- Bits of parameter word `i`. -/
def pb (p : List Word) (i hi lo : Nat) : Nat := natBits (pw p i) hi lo

/-- A 64-bit parameter from word `i` up. -/
def pw64 (p : List Word) (i : Nat) : Nat := pw p i + pw p (i + 1) * 2 ^ 32

/-- Every parameter word lies within its mask of assigned bits (R4, R287). -/
def reservedClear (p : List Word) (masks : List Nat) : Bool :=
  (p.zip masks).all (fun x => x.1.toNat &&& x.2 == x.1.toNat)

/-- The command path takes commands: enabled, the microengine running (2) or, where no image is valid,
the boot ROM serving (R307, R398), fewer than 64 completions held (R290). -/
def ueServes (s : Block) : Bool :=
  let u := getF s F.HOSTCMD_STATE_UE_STATE
  flag s F.HOSTCMD_CTRL_EN && (u == 2 || u == 4) && decide (s.cmd.held.length < 64)

/-- The header at HEAD of ring `r` is `w`, where it is known. -/
def headerHeld (s : Block) (r : Nat) (w : Word) : Bool :=
  match nextHeader s r with
  | none => true
  | some x => x == w

/-- The header word of a packet (R287). -/
def headerWord (h : Hdr) (op : Nat) : Word := Word.ofNat (h.flags + h.len * 2 ^ 8 + h.tag * 2 ^ 16 + op * 2 ^ 24)

/-- The packet at HEAD of its ring has opcode `op`, the header `h` and the parameter words `p`: what the window holds,
where the ring lies in it. A ring in host memory lies outside the block, and its packet is as the step says, under the
header that the microengine has read, where it has read one (log entry 7). -/
def packetHeld (s : Block) (h : Hdr) (op : Nat) (p : List Word) : Bool :=
  headerHeld s h.ring (headerWord h op) &&
    (!inWindow s h.ring || decide (64 < h.len) ||
      (List.range (h.len - 1)).all (fun i => ringWord s h.ring (i + 1) == p.getD i 0))

/-- The packet `h` is the next the microengine starts: its ring is enabled and readable, the packet lies before TAIL,
no command of the ring is in progress, a FENCE finds none waiting, and R293 gives it the step. -/
def packetReady (s : Block) (h : Hdr) : Bool :=
  ueServes s && flag s (sqF h.ring F.HOSTCMD_SQ0_CFG_EN) && ringReadable s h.ring && decide (max 1 h.len ≤ sqAvail s h.ring) &&
    (inProgress s h.ring).isNone &&
    !(h.flags.testBit 0 && s.cmd.jobs.any (fun j => j.h.ring == h.ring)) && mayStep s h.ring

/-- HEAD moves past the packet, which becomes the next of those taken, and CUR shows the command (R286, Table 13-8). -/
def takePacket (s : Block) (h : Hdr) (op : Nat) : Block :=
  let s := clearPeek (tookStep s h.ring) h.ring
  let n := s.cmd.taken + 1
  let seen := if h.ring = 0 then [0, 1] else 0 :: s.cmd.unseen.filter (· == 1)
  let s := { s with cmd := { s.cmd with taken := n, cur := n, unseen := seen } }
  let hd := sqF h.ring F.HOSTCMD_SQ0_HEAD_IDX
  let s := setF s hd ((getF s hd + h.len) % sqSize s h.ring)
  let s := setF s F.HOSTCMD_CUR_VALID 1
  let s := setF s F.HOSTCMD_CUR_OPCODE op
  let s := setF s F.HOSTCMD_CUR_TAG h.tag
  setF (setF s F.HOSTCMD_CUR_RING h.ring) F.HOSTCMD_CUR_STEPS_COUNT 0

/-- A ring error (R288). -/
def ringErrorOp (s : Block) (r tag op : Nat) : Block :=
  let s := setF (clearPeek s r) (sqF r F.HOSTCMD_SQ0_CFG_EN) 0
  let s := cmdStatus (setF s F.HOSTCMD_STATUS_RING_ERR
    (getF s F.HOSTCMD_STATUS_RING_ERR ||| 2 ^ r)) ⟨R.HOSTCMD_STATUS, r, r⟩
  complete s ⟨⟨r, tag, 0, 1⟩, op, Sts.badLength, 0xFFFF, 0, 0⟩

/-- The commands for which a chapter names what STEPS counts (R289): entries, pages, descriptors, records, bytes, units. One
that fails at its checks has done none of it. -/
def countedOps : List Nat := [0x15, 0x16, 0x21, 0x34, 0x44, 0x50, 0x51, 0x58, 0x59, 0x5A]

/-- The result of a command's step put on the job list or completed. -/
def finish (h : Hdr) (op : Nat) (p data : List Word) (r : CmdRes) : Block :=
  let counted := countedOps.contains op
  match r with
  | .done s st dt n res =>
    let s := forgetUndo s s.cmd.cur
    complete (setF s F.HOSTCMD_CUR_STEPS_COUNT 1) ⟨h, op, st, dt, if counted && decide (Sts.partially < st) then 0 else n, res⟩
  | .wait s todo due res =>
    let s := setF s F.HOSTCMD_CUR_STEPS_COUNT 1
    let ph := if (waitingJobs s).length < 64 then JobPhase.waiting else JobPhase.inProgress
    setJobs s (s.cmd.jobs ++ [⟨h, op, p, data, ph, if counted then 0 else 1, res, 0, todo, due, false, 0, s.cmd.cur⟩])
  | .more s n res todo =>
    let s := setF s F.HOSTCMD_CUR_STEPS_COUNT 1
    setJobs s (s.cmd.jobs ++ [⟨h, op, p, data, .inProgress, n, res, 0, todo, 0, false, 0, s.cmd.cur⟩])

/-- The package's mode (Table 14-6); while it reads MIXED, the one the CDIE's own blocks are in. -/
def modeOf (s : Block) : Nat :=
  let m := getF s F.GLOBAL_MODE_CUR
  if m = 15 then s.sys.cdie else m

/-! ## Reserved encodings (R4, R287) -/

/-- Range code `code` is one that unit `u`'s table lists (Tables 02-6, 02-7). -/
def rangeOk (u code : Nat) : Bool :=
  if u < 48 then code ≤ 4 || code = 8 else code = 0 || code = 8 || code = 9

/-- The registers of a unit of R299. -/
def unitRegs (u : Nat) : List RegDef :=
  if u < 48 then regsP else if u < 64 then regsD else if u < 96 then regsA else regsLc

/-- The word `new` for the register at offset `o` of unit `u` holds a reserved code or a value the register does
not take. -/
def unitCodeBad (u o new : Nat) : Bool :=
  if u < 64 then
    (o == R.P_CTRL && decide (2 ≤ natBits new 9 8)) ||
    (o == R.P_SYN && decide (5 ≤ natBits new 26 24)) ||
    (o == 0x30 && (if u < 48 then decide (6 ≤ natBits new 10 8) || natBits new 1 0 == 3
      else decide (2 ≤ natBits new 1 0)))
  else if u < 96 then
    (o == R.A_CTRL && (decide (12 ≤ natBits new 11 8) || decide (2 ≤ natBits new 5 4))) ||
    (decide (R.A_RED0 ≤ o) && decide (o < R.A_RED0 + 16) && decide (natBits new 23 0 < 127))
  else
    o == R.LC_LCFG && decide (u < 103) &&
      (List.range 8).any (fun j => natBits new (4 * j + 1) (4 * j) == 3)

/-- The offset and value pairs of a UNIT_CONFIG packet. -/
def configPairs : List Word → List (Nat × Nat)
  | o :: v :: t => (o.toNat, v.toNat) :: configPairs t
  | _ => []

/-- The bits of a register that UNIT_CONFIG writes: RW and RWB fields, not the keyed ones (R300). -/
def configMask (u o : Nat) : Nat :=
  match findReg (unitRegs u) o with
  | some d => d.rw - (d.rw &&& d.key)
  | none => 0

/-- A parameter of the packet holds a reserved encoding: a code that its field's table does not list. -/
def reservedCode (op : Nat) (p : List Word) : Bool :=
  if op = Op.segCreate then decide (2 ≤ pb p 2 1 0)
  else if op = Op.seqStop then pb p 1 9 8 == 3
  else if op = Op.unitConfig then
    let u := pb p 1 6 0
    decide (104 ≤ u) || (configPairs (p.drop 1)).any (fun x => unitCodeBad u x.1 (x.2 &&& configMask u x.1))
  else if op = Op.unitRange then
    let us := bitList (pw64 p 1) 64
    !us.isEmpty && !rangeOk (us.headD 0) (pb p 3 3 0)
  else if op = Op.tableLoad then decide (3 < pb p 1 3 0)
  else if op = Op.tableSwap then pb p 1 1 0 == 0
  else if op = Op.nvmWrite then pb p 1 3 0 == 0 || decide (4 < pb p 1 3 0) || pb p 1 17 16 == 3
  else if op = Op.dramTrain then pb p 1 5 4 == 0
  else if op = Op.pllRelock then pb p 1 1 0 == 3
  else if op = Op.pacReserve then
    let u := pb p 1 6 0
    (decide (64 ≤ u) && u != 0x7F) || (decide (u < 64) && !rangeOk u (pb p 1 11 8))
  else if op = 0x79 then decide (64 ≤ pb p 1 6 0) && pb p 1 6 0 != 0x7F
  else false

/-- The controller serves no request, in training or in self-refresh, and is neither frozen nor unusable (R276, R279). -/
def dramStalled (s : Block) : Bool := getF s F.DRAMC_STATE_DSTATE == 1 || getF s F.DRAMC_STATE_DSTATE == 3

/-- The commands whose steps read or write DRAM. -/
def dramOps : List Nat := [0x10, 0x11, 0x12, 0x13, 0x14, 0x21, 0x22, 0x42, 0x44]

/-- A command's first step needs DRAM: one of those, a LIFT_SUBMIT that resumes a copy, a GET_STATUS of WIN_DATA. -/
def needsMemory (op : Nat) (p : List Word) : Bool :=
  dramOps.contains op || (op == Op.liftSubmit && pb p 1 8 8 == 1) ||
    (op == 0x02 && decide (pw p 1 ≤ R.MMU_WIN_DATA) && decide (R.MMU_WIN_DATA < pw p 1 + 4 * pb p 2 4 0))

/-- The packet waits at HEAD until DRAM serves requests again; a command that BOOT refuses does not wait (DESIGN CHOICE, log
entry 46). -/
def dramStalls (s : Block) (op : Nat) (p : List Word) : Bool :=
  dramStalled s && modeOf s != 0 && needsMemory op p

/-- A MODE_SET to a target other than SAFE while a change is prepared and not applied by every party: BUSY, before every
other check (R351). A packet too short to hold a target is no such command (DEDUCED, log entry 32). -/
def modeBusy (s : Block) (h : Hdr) (op : Nat) (p : List Word) : Bool :=
  op == Op.modeSet && flag s F.GLOBAL_MODE_CHANGING && decide (2 ≤ h.len) && pb p 1 2 0 != 4

/-- One command taken from its ring (R287): length, then reserved flags, encodings and bits, then SLEEP, which refuses it
(R350), then the command's own checks and effect `body`. A command whose packet is not the next to start does not happen,
nor does one that needs DRAM while the controller serves no request: the state stays (log entries 7, 46). -/
def runCmd (s : Block) (h : Hdr) (op : Nat) (p data : List Word) (lenOk : Nat → Bool)
    (masks : List Nat) (body : Block → List Word → CmdRes) : Out :=
  withIdx 4 h.ring <|
    if !packetReady s h || !packetHeld s h op p then .next s
    else if h.len = 0 || decide (64 < h.len) then .next (ringErrorOp s h.ring h.tag op)
    else
      let t := takePacket s h op
      let p := (p ++ List.replicate 63 0).take (h.len - 1)
      .next <|
        if modeBusy s h op p then complete t ⟨h, op, Sts.busy, 0, 0, 0⟩
        else if !lenOk h.len then complete t ⟨h, op, Sts.badLength, 0, 0, 0⟩
        else if decide (8 ≤ h.flags) || !reservedClear p masks || reservedCode op p then
          complete t ⟨h, op, Sts.badParam, 0, 0, 0⟩
        else if modeOf s = 5 then complete t ⟨h, op, Sts.state, 0, 0, 0⟩
        else if dramStalls s op p then s
        else finish h op p data (body t p)

/-- Unit `u` of R299 is named by a CAL_RUN in progress (R348). -/
def calNamed (s : Block) (u : Nat) : Bool :=
  match s.cal.run with
  | some r =>
    if u < 64 then (pw64 r.p 1).testBit u
    else if u < 96 then (pw r.p 3).testBit (u - 64)
    else (pw r.p 4).testBit (u - 96)
  | none => false

/-- The commands accepted in BOOT are served before the mode check; every other completes STATE (R350). -/
def notInBoot (s : Block) (k : CmdRes) : CmdRes :=
  if modeOf s = 0 then .fail s Sts.state else k

/-- Commands that need DRAM complete DRAM_FROZEN while the controller is frozen or the stack unusable
(R298): DSTATE is given by `bad`. R423 does not place this among its six checks: the model makes it before them all
(DESIGN CHOICE, log entry 46). -/
def needsDram (s : Block) (bad : Bool) (k : CmdRes) : CmdRes :=
  if bad then .fail s Sts.dramFrozen else k

end Sys2Proof.Machine
end

