-- ==== Sys2Proof/Machine/Pac.lean ====
section
/-! DEFINITION. Power admission (R20, R29, R360 to R365): ledgers, charges, requests, the queue. Ledgers
are numbered as in Table 16-5. -/

namespace Sys2Proof.Machine

/-- How far the ledger's register lies from PKG_RSV. -/
def ledgerOff (l : Nat) : Nat :=
  match l with
  | 7 => 0
  | 6 => 4
  | 5 => 12
  | 4 => 8
  | i => 16 + 4 * i

/-- The total of ledger `l`. -/
def ledgerTotal (s : Block) (l : Nat) : Nat := getF s (F.POWER_PKG_RSV_TOTAL.at (ledgerOff l))

/-- The safety charges of ledger `l`. -/
def ledgerSafety (s : Block) (l : Nat) : Nat := getF s (F.POWER_PKG_RSV_SAFETY.at (ledgerOff l))

/-- The ledgers a charge on `l` counts on (R360). -/
def ledgerChain (l : Nat) : List Nat :=
  if l < 4 then [l, 4 + l / 2, 7] else if l < 7 then [l, 7] else [7]

/-- The package cap in force (Table 16-12). -/
def pkgCap (s : Block) : Nat := min 20000 (max 6000 (getF s F.POWER_PKG_CAP_CAP))

/-- The limit of ledger `l` in mW (R360, R364). -/
def ledgerLimit (s : Block) (l : Nat) : Nat :=
  if l < 4 then 2200
  else if l = 4 then getF s F.POWER_LIM_ADIE_ADIE0
  else if l = 5 then getF s F.POWER_LIM_ADIE_ADIE1
  else if l = 6 then getF s F.POWER_LIM_CDIE_CDIE
  else pkgCap s

/-- Add to a ledger's total, and to its safety part. -/
def addLedger (safety : Bool) (amt : Nat) (s : Block) (l : Nat) : Block :=
  let s := addF s (F.POWER_PKG_RSV_TOTAL.at (ledgerOff l)) amt
  if safety then addF s (F.POWER_PKG_RSV_SAFETY.at (ledgerOff l)) amt else s

/-- Take from a ledger's total, and from its safety part. -/
def subLedger (safety : Bool) (amt : Nat) (s : Block) (l : Nat) : Block :=
  let f := F.POWER_PKG_RSV_TOTAL.at (ledgerOff l)
  let g := F.POWER_PKG_RSV_SAFETY.at (ledgerOff l)
  let s := setF s f (getF s f - amt)
  if safety then setF s g (getF s g - amt) else s

/-- A charge on ledger `l` and those it counts on; a safety charge is applied whatever they show, and
sets OVER where it takes one above its limit (R363). -/
def pacCharge (s : Block) (l amt : Nat) (safety : Bool) : Block :=
  let s := (ledgerChain l).foldl (addLedger safety amt) s
  let s := maxF s F.POWER_PEAK_PKG_MW (ledgerTotal s 7)
  if safety && (ledgerChain l).any (fun k => decide (ledgerLimit s k < ledgerTotal s k)) then
    raise s F.POWER_STATUS_OVER
  else s

/-- A charge taken back. -/
def pacUncharge (s : Block) (l amt : Nat) (safety : Bool) : Block :=
  (ledgerChain l).foldl (subLedger safety amt) s

/-- What a request adds to ledger `k`. -/
def addedOn (amts : List (Nat × Nat)) (k : Nat) : Nat :=
  amts.foldl (fun n a => if (ledgerChain a.1).contains k then n + a.2 else n) 0

/-- The ledgers on which the request does not fit now. -/
def tooTight (s : Block) (amts : List (Nat × Nat)) : List Nat :=
  (List.range 8).filter (fun k => addedOn amts k != 0 &&
    decide (ledgerLimit s k < ledgerTotal s k + addedOn amts k))

/-- The ledgers on which it can never fit (R362). -/
def neverFits (s : Block) (amts : List (Nat × Nat)) : List Nat :=
  (List.range 8).filter (fun k => addedOn amts k != 0 &&
    decide (ledgerLimit s k < ledgerSafety s k + addedOn amts k))

/-- The queue, with the counts QSTAT shows. -/
def setQueue (s : Block) (q : List PacReq) : Block :=
  let s := { s with sys := { s.sys with queue := q } }
  maxF (setF s F.POWER_QSTAT_QUEUED q.length) F.POWER_QSTAT_HIGHEST q.length

/-- Handle `k`. -/
def handle (s : Block) (k : Nat) : Handle := Tbl.get (fun _ => ({} : Handle)) s.sys.handles k

/-- Handle `k` changed. -/
def setHandle (s : Block) (k : Nat) (h : Handle) : Block :=
  let m := Tbl.set (fun _ => ({} : Handle)) s.sys.handles k h
  { s with sys := { s.sys with handles := m } }

/-- A grant to its owner (R362, R365): the charges, the owner's record, and, for a handle, the firing of
source 176 + k with hop count 0. -/
def pacGrant (s : Block) (r : PacReq) : Block :=
  let s := incF (r.amts.foldl (fun s a => pacCharge s a.1 a.2 false) s) F.POWER_GRANTS_COUNT
  match r.owner with
  | .unit u =>
    let x := unit s u
    let l := s.cmd.jobs.map (fun j => if j.id == r.id &&
      (j.op == Op.unitEnable || j.op == Op.unitRange) then
        { j with todo := j.todo ++ [u + 64 * addedOn r.amts (regionOf u)] } else j)
    let s := { s with cmd := { s.cmd with jobs := l } }
    setB (setUnit s u { x with grant := x.grant + addedOn r.amts (regionOf u) })
      (uF u F.P_STATE_GRANT) true
  | .handle k => fire (setHandle s k { handle s k with st := 2 }) (176 + k) 0 s.sysTime
  | .seq n => setSeq s n { seqr s n with admitted := true }
  | .cmd _ => s

/-- A refusal recorded (Table 16-12). -/
def pacRefuse (s : Block) (status ledger idx : Nat) : Block :=
  let s := if status = Sts.powerDenied then raise (incF s F.POWER_DENIES_COUNT) F.POWER_STATUS_DENY
    else raise (incF s F.POWER_TIMEOUTS_COUNT) F.POWER_STATUS_TIMEOUT
  let s := setF s F.POWER_LAST_REFUSE_STATUS status
  setF (setF s F.POWER_LAST_REFUSE_LEDGER ledger) F.POWER_LAST_REFUSE_INDEX idx

/-- PAC's answer to a request (R362). -/
inductive PacAnswer where
  | grant | deny | queue
  deriving DecidableEq, Repr

/-- PAC's answer: GRANT where it fits, DENY where it never can, where the queue is full or under NOWAIT,
else QUEUE. Where PKG_CAP lies below the sum of the safety charges, no request fits the package: R362 denies what can never
fit, R29 and R83 defer every other grant; the model denies (DESIGN CHOICE, log entry 33). -/
def pacAnswer (s : Block) (r : PacReq) (nowait : Bool) : PacAnswer :=
  if (tooTight s r.amts).isEmpty then .grant
  else if !(neverFits s r.amts).isEmpty || decide (32 ≤ s.sys.queue.length) || nowait then .deny
  else .queue

/-- A request made: the state after PAC's answer, and the answer. -/
def pacAsk (s : Block) (r : PacReq) (nowait : Bool) : Block × PacAnswer :=
  match pacAnswer s r nowait with
  | .grant => (pacGrant s r, .grant)
  | .deny =>
    let l := ((neverFits s r.amts ++ tooTight s r.amts).headD 7)
    (pacRefuse s Sts.powerDenied l r.idx, .deny)
  | .queue => (setQueue (raise s F.POWER_STATUS_QUEUED) (s.sys.queue ++ [r]), .queue)

/-- The order in which PAC visits requests: class, then index, then arrival (R362). -/
def pacBefore (a b : PacReq) : Bool :=
  decide (b.cls < a.cls) || (a.cls == b.cls && decide (a.idx < b.idx))

/-- Insert behind the requests that come no later. -/
def pacInsert (r : PacReq) : List PacReq → List PacReq
  | [] => [r]
  | x :: t => if pacBefore r x then r :: x :: t else x :: pacInsert r t

/-- The queue in visiting order. -/
def pacOrder (q : List PacReq) : List PacReq := q.foldl (fun l r => pacInsert r l) []

/-- Mark the command of a request as refused: the head of its `todo` becomes 0x1000 plus the status its
wait ends with (R301, R362). -/
def markRefused (s : Block) (r : PacReq) (status : Nat) : Block :=
  let who := match r.owner with
    | .unit u => u
    | _ => r.idx
  let l := s.cmd.jobs.map (fun j =>
    if j.id == r.id && decide (j.todo.headD 0 < 0x1000) then
      { j with todo := (0x1000 + status) :: j.todo.drop 1, detail := if status = Sts.aborted then 0 else who } else j)
  { s with cmd := { s.cmd with jobs := l } }

/-- A queued handle request that ends without a grant frees its handle. -/
def freeHandleOf (s : Block) (r : PacReq) : Block :=
  match r.owner with
  | .handle k => setHandle s k {}
  | _ => s

/-- Requests that can never fit are denied; each that fits is granted; the rest stay (R362). -/
def pacVisit (s : Block) : Block :=
  (pacOrder s.sys.queue).foldl (fun s r =>
    if (tooTight s r.amts).isEmpty then pacGrant (setQueue s (s.sys.queue.erase r)) r
    else
      match neverFits s r.amts with
      | [] => s
      | l :: _ =>
        let s := pacRefuse (setQueue s (s.sys.queue.erase r)) Sts.powerDenied l r.idx
        markRefused (freeHandleOf s r) r Sts.powerDenied) s

/-- A release: the charges go, and PAC visits the queue in the same cycle (R362, Table 16-10). -/
def pacRelease (s : Block) (l amt : Nat) : Block := pacVisit (pacUncharge s l amt false)

/-- The PAC figure of a range of a P or D unit in mW (Tables 02-6, 02-7). -/
def rangePac (u code : Nat) : Nat :=
  if u < 48 then (if code = 3 then 40 else 0) else if code = 0 then 250 else 400

/-- A unit's floor: the larger figure of its rest and fault range (R83). -/
def unitFloor (s : Block) (u : Nat) : Nat :=
  max (rangePac u (getF s (strF u F.STR_SCFG_RRANGE)))
    (rangePac u (getF s (strF u F.STR_SCFG_FRANGE)))

/-- The floor reservation of a unit brought to its records' value, in the safety class (R83), with PAC's visit of the queue
after it (R362). What becomes of a grant above the floor when a committed record moves the floor the spec does not say: the
grant and its charge stay as they are (DESIGN CHOICE, log entry 33). -/
def takeFloor (s : Block) (u : Nat) : Block :=
  let x := unit s u
  let f := unitFloor s u
  if f = x.floor then s
  else
    let s := pacUncharge s (regionOf u) x.floor true
    pacVisit (setUnit (pacCharge s (regionOf u) f true) u { x with floor := f })

/-- The grant above the floor that unit `u` needs for range `code` and does not hold (R53, R83). -/
def grantNeed (s : Block) (u code : Nat) : Nat :=
  rangePac u code - ((unit s u).floor + (unit s u).grant)

/-- The grant above the floor released down to what `code` needs (R88, R91). STATE.GRANT shows a grant above the floor
alone: it reads 0 where the floor reservation covers the range (DESIGN CHOICE, log entry 33). -/
def releaseGrant (s : Block) (u code : Nat) : Block :=
  let x := unit s u
  let keep := min x.grant (rangePac u code - x.floor)
  if keep = x.grant then s
  else
    let s := setUnit s u { x with grant := keep }
    let s := setB s (uF u F.P_STATE_GRANT) (decide (0 < keep))
    pacRelease s (regionOf u) (x.grant - keep)

/-- The request of a unit's range grant: real-time where its group is armed, else host (Table 16-4). -/
def unitRequest (s : Block) (h : Hdr) (u code idx due : Nat) : PacReq :=
  let armed := match groupOf s u with
    | some g => decide (1 ≤ getF s (qF g F.SEQ_STATE_SSTATE))
    | none => false
  ⟨if armed then 2 else 1, idx, [(regionOf u, grantNeed s u code)], .unit u, h.ring, s.cmd.cur, due⟩

/-- Timeout of unit commands in ns, and of other commands; 0 acts as 1 ms (Table 16-12). -/
def toUnit (s : Block) : Nat := max 1 (getF s F.POWER_QCFG_TO_UNIT) * 1000000

def toCmd (s : Block) : Nat := max 1 (getF s F.POWER_QCFG_TO_CMD) * 1000000

end Sys2Proof.Machine
end

