-- ==== Sys2Proof/Machine/Segments.lean ====
section
/-! DEFINITION. Segments, pages, rings and the loop cache (R95 to R113, R119): the operations the segment
commands, LIFT, the host window, compaction and the sequencers share. -/

namespace Sys2Proof.Machine

/-! ## Descriptors -/

/-- Descriptor `id`. -/
def seg (s : Block) (id : Nat) : Seg := Tbl.get (fun _ => ({} : Seg)) s.mem.segs id

/-- Descriptor `id` changed. -/
def setSeg (s : Block) (id : Nat) (g : Seg) : Block :=
  { s with mem := { s.mem with segs := Tbl.set (fun _ => ({} : Seg)) s.mem.segs id g } }

/-- Ring `id`. -/
def ringOf (s : Block) (id : Nat) : Ring := Tbl.get (fun _ => ({} : Ring)) s.mem.rings id

/-- Ring `id` changed. -/
def setRing (s : Block) (id : Nat) (r : Ring) : Block :=
  { s with mem := { s.mem with rings := Tbl.set (fun _ => ({} : Ring)) s.mem.rings id r } }

/-- LIFT channel `c`. -/
def lift (s : Block) (c : Nat) : LiftCh := Tbl.get (fun _ => ({} : LiftCh)) s.mem.lifts c

/-- LIFT channel `c` changed. -/
def setLift (s : Block) (c : Nat) (l : LiftCh) : Block :=
  { s with mem := { s.mem with lifts := Tbl.set (fun _ => ({} : LiftCh)) s.mem.lifts c l } }

/-- The frame size FB (R95). -/
def frameBytes (sfmt na nl : Nat) : Nat := na * (if sfmt = 0 then 4 else 2) + nl

/-- The size of a segment in bytes: L × FB, or L blocks of 64 bytes of a capture segment (R95, R98). -/
def segSize (g : Seg) : Nat := if g.sfmt = 2 then g.len * 64 else g.len * frameBytes g.sfmt g.na g.nl

/-- Pages of a size (Table 05-2). -/
def pagesOf (n : Nat) : Nat := (n + 8191) / 8192

/-- A LIFT descriptor is running, waiting or held on segment `id` (R117), in one of the states `l`. -/
def liftOpen (s : Block) (id : Nat) (l : List Nat) : Bool :=
  (List.range 8).any (fun c => let x := lift s c
    x.seg == id && l.contains x.st && !x.desc.isEmpty)

/-- Capture `t`. -/
def cap (s : Block) (t : Nat) : CapSt := Tbl.get (fun _ => ({} : CapSt)) s.caps t

/-- Capture `t` changed. -/
def setCap (s : Block) (t : Nat) (c : CapSt) : Block :=
  { s with caps := Tbl.set (fun _ => ({} : CapSt)) s.caps t c }

/-- Capture `t` is armed: ESTATE ARMED or RUNNING (R188). -/
def capArmed (s : Block) (t : Nat) : Bool :=
  let e := getF s (tF t F.TRACK_STATE_ESTATE)
  e == 1 || e == 2

/-- A capture is armed into segment `id` (R100). -/
def capArmedOn (s : Block) (id : Nat) : Bool :=
  (List.range 4).any (fun t => capArmed s t &&
    ((cap s t).cfg.capseg == id || ((cap s t).cfg.redEn && (cap s t).cfg.redseg == id)))

/-- Any capture is armed. -/
def anyCapArmed (s : Block) : Bool := (List.range 4).any (capArmed s)

/-- Any sequencer is armed: in a state other than IDLE (Table 06-2). -/
def anySeqArmed (s : Block) : Bool :=
  (List.range 16).any (fun n => getF s (qF n F.SEQ_STATE_SSTATE) != 0)

/-- The controller is frozen or the stack unusable: commands that need DRAM complete DRAM_FROZEN (R298). -/
def dramBad (s : Block) : Bool := getF s F.DRAMC_STATE_DSTATE == 4 || getF s F.DRAMC_STATE_DSTATE == 5

/-- The controller serves requests. -/
def dramRuns (s : Block) : Bool := getF s F.DRAMC_STATE_DSTATE == 2

/-! ## Pages -/

/-- The page table entry of virtual page `v`. -/
def pte (s : Block) (v : Nat) : Option Pte := Tbl.get (fun _ => (none : Option Pte)) s.mem.ptes v

/-- The page table entry of `v` changed. -/
def setPte (s : Block) (v : Nat) (e : Option Pte) : Block :=
  { s with mem := { s.mem with ptes := Tbl.set (fun _ => (none : Option Pte)) s.mem.ptes v e } }

/-- The end of the pool of physical pages: 8,192 of the system area and 3,661,824 more. -/
def poolEnd : Nat := 8192 + 3661824

/-- A number inserted into an ascending list. -/
def insertNat (x : Nat) : List Nat → List Nat
  | [] => [x]
  | y :: t => if x ≤ y then x :: y :: t else y :: insertNat x t

/-- Free physical pages. -/
def freePages (s : Block) : Nat := s.mem.free.length + (poolEnd - s.mem.bump)

/-- Pages promised to a segment command in progress (it maps 64 at a step). -/
def promised (s : Block) : Nat :=
  s.cmd.jobs.foldl (fun n j =>
    if j.op = Op.segCreate || j.op = Op.segOpen then n + (j.todo.length - 1) else n) 0

/-- Physical page `p` is free. -/
def pageFree (s : Block) (p : Nat) : Bool :=
  s.mem.free.contains p || (decide (s.mem.bump ≤ p) && decide (p < poolEnd))

/-- Physical page `p` is taken from the pool. -/
def takePage (s : Block) (p : Nat) : Block :=
  if p < s.mem.bump then { s with mem := { s.mem with free := s.mem.free.erase p } }
  else
    let gap := (List.range (p - s.mem.bump)).map (· + s.mem.bump)
    { s with mem := { s.mem with free := s.mem.free ++ gap, bump := p + 1 } }

/-- The lowest free physical page. -/
def lowestFree (s : Block) : Option Nat :=
  match s.mem.free with
  | p :: _ => some p
  | [] => if s.mem.bump < poolEnd then some s.mem.bump else none

/-- A physical page returned to the pool. -/
def returnPage (s : Block) (p : Nat) : Block :=
  { s with mem := { s.mem with free := insertNat p s.mem.free } }

/-- The bytes of physical page `p` all zero, with fresh codes. -/
def zeroPage (s : Block) (p : Nat) : Block :=
  let d := s.mem.dram.filter (fun x => x.1 / 8192 != p)
  { s with mem := { s.mem with dram := d, errs := s.mem.errs.filter (fun e => e.1 / 1024 != p) } }

/-- A deliberate error of CTRL.ERR_INJ goes into the check block of the NRT write just made, of the word that `a` lies
in, and the field returns to 0 (R273). -/
def injectErr (s : Block) (a : Option Nat) : Block :=
  let k := getF s F.DRAMC_CTRL_ERR_INJ
  match a with
  | some a =>
    if k = 0 then s
    else
      let s := setF s F.DRAMC_CTRL_ERR_INJ 0
      { s with mem := { s.mem with errs := s.mem.errs.filter (fun e => e.1 != a / 8) ++ [(a / 8, k)] } }
  | none => s

/-- Virtual page `v` of segment `id` mapped to a zero-filled physical page, if it has none. -/
def mapPage (s : Block) (id v : Nat) : Block :=
  match pte s v with
  | some _ => s
  | none =>
    match lowestFree s with
    | none => s
    | some p => injectErr (setPte (zeroPage (takePage s p) p) v (some ⟨p, id, false⟩)) (some (p * 8192))

/-- Virtual page `v` unmapped, and its physical page returned to the pool (R103). A page whose retirement waits stays out
of the pool and is retired by the engine (R111). The TLB keeps what it holds of the page: the spec invalidates the entry
alone (DESIGN CHOICE, log entry 9). -/
def unmapPage (s : Block) (v : Nat) : Block :=
  match pte s v with
  | none => s
  | some e =>
    let s := setPte s v none
    if s.sys.retire.contains e.ppn then s else returnPage s e.ppn

/-- Every page of segment `id` is mapped. -/
def fullyMapped (s : Block) (g : Seg) : Bool :=
  (List.range g.pages).all (fun k => (pte s (g.vpn + k)).isSome)

/-- The pages of the virtual space. -/
def vPages : Nat := 4194304

/-- The virtual ranges in use: first page and page count. -/
def vRanges (s : Block) : List (Nat × Nat) :=
  (s.mem.segs.filter (fun p => p.2.pages != 0)).map (fun p => (p.2.vpn, p.2.pages))

/-- The first fit of `n` virtual pages from the lowest address (Table 05-2). -/
def vFit (s : Block) (n : Nat) : Option Nat :=
  let used := vRanges s
  let fits := fun b => decide (b + n ≤ vPages) &&
    used.all (fun r => decide (r.1 + r.2 ≤ b) || decide (b + n ≤ r.1))
  let cands := (0 :: used.map (fun r => r.1 + r.2)).filter fits
  match cands with
  | [] => none
  | c :: t => some (t.foldl min c)

/-! ## Translation (R106) -/

/-- A translation of virtual page `v`: a TLB hit makes it the most recent of its set; a miss counts,
walks, and replaces the least recent of the eight. Set: the low 9 bits of the VPN. A walk for playback
takes a time the spec bounds by 600 ns. -/
def tlbAccess (s : Block) (rt : Bool) (v : Nat) : Block :=
  let set := v % 512
  let ways := Tbl.get (fun _ => ([] : List Nat)) s.mem.tlb set
  let put := fun (s : Block) (w : List Nat) =>
    { s with mem := { s.mem with tlb := Tbl.set (fun _ => ([] : List Nat)) s.mem.tlb set w } }
  if ways.contains v then put s (v :: ways.erase v)
  else
    let s := incF (put s ((v :: ways).take 8)) F.MMU_TLB_MISS_MISSES
    if rt then useFree (maxF s F.MMU_WALK_MAX_NS (freeNat s 16 % 601)) else s

/-- Every TLB entry of virtual page `v` invalidated. -/
def tlbDrop (s : Block) (v : Nat) : Block :=
  let set := v % 512
  let ways := Tbl.get (fun _ => ([] : List Nat)) s.mem.tlb set
  { s with mem := { s.mem with tlb := Tbl.set (fun _ => ([] : List Nat)) s.mem.tlb set (ways.erase v) } }

/-! ## Bytes of segments -/

/-- The physical byte address of byte `o` of a segment, where its page is mapped. -/
def physAddr (s : Block) (g : Seg) (o : Nat) : Option Nat :=
  (pte s (g.vpn + o / 8192)).map (fun e => e.ppn * 8192 + o % 8192)

/-- The DRAM byte at physical address `a`. -/
def dramByte (s : Block) (a : Nat) : Byte := Tbl.get (fun _ => (0 : Byte)) s.mem.dram a

/-- Byte `o` of a segment; an unmapped page reads zero (R118). -/
def segByte (s : Block) (g : Seg) (o : Nat) : Byte :=
  match physAddr s g o with
  | some a => dramByte s a
  | none => 0

/-- `n` bytes of a segment from byte `o`. -/
def segBytes (s : Block) (g : Seg) (o n : Nat) : List Byte :=
  (List.range n).map (fun i => segByte s g (o + i))

/-- One byte written, and with it the code of its word (R258); an unmapped page takes none. -/
def putSegByte (s : Block) (g : Seg) (o : Nat) (b : Byte) : Block :=
  match physAddr s g o with
  | some a => { s with mem := { s.mem with
      dram := Tbl.set (fun _ => (0 : Byte)) s.mem.dram a b,
      errs := s.mem.errs.filter (fun e => e.1 != a / 8) } }
  | none => s

/-- Bytes written from byte `o` up. -/
def putSegBytes (s : Block) (g : Seg) (o : Nat) : List Byte → Block
  | [] => s
  | b :: t => putSegBytes (putSegByte s g o b) g (o + 1) t

/-! ## Reads and their errors (R258, R269, R271) -/

/-- The class of a requester (Table 12-3): 0 RT0, 1 RT1, 2 NRT. -/
def reqClass (req : Nat) : Nat := if req < 3 then 0 else if req < 5 then 1 else 2

/-- A request of requester `req` served (R263). -/
def noteServed (s : Block) (req : Nat) : Block :=
  let c := reqClass req
  let l := if s.dramc.unseen.contains c then s.dramc.unseen else s.dramc.unseen ++ [c]
  if dramRuns s then { s with dramc := { s.dramc with
    served := Tbl.set (fun _ => 0) s.dramc.served c (s.now + 1), unseen := l } }
  else s

/-- A read of the 8-byte words that `p` picks, by requester `req`, `sub` with command `cmd`: while ECC_EN is 1 every error
among them is met, and a single-bit one is corrected and written back. What the errors bring about beyond that is done
at the end of the step that reads. -/
def checkRead (s : Block) (req sub cmd : Nat) (seg : Option Nat) (p : Nat → Bool) : Block :=
  let s := noteServed s req
  let l := s.mem.errs.filter (fun e => p e.1)
  if l.isEmpty || !flag s F.DRAMC_CTRL_ECC_EN || !dramRuns s then s
  else
    let kept := s.mem.errs.filter (fun e => !(p e.1 && e.2 == 1))
    { s with mem := { s.mem with errs := kept },
             dramc := { s.dramc with hits := s.dramc.hits ++ l.map (fun e => ⟨e.1, e.2, req, sub, cmd, seg⟩) } }

/-- A read of the step in course met an uncorrectable word. -/
def ueMet (s : Block) : Bool := s.dramc.hits.any (fun h => h.bits == 2)

/-- The 8-byte words of step `i`: the step table follows the page table of 32 MiB in the system area, in the order in which
the chapter lists them (DESIGN CHOICE, log entry 46). -/
def stepWord (i w : Nat) : Bool := w / 2 == 0x200000 + i

/-- The steps of a list read by requester `req`, `sub`, and checked (R124, R258). -/
def checkSteps (s : Block) (req sub : Nat) (l : List Nat) : Block :=
  checkRead s req sub 0 none (fun w => l.any (fun i => stepWord i w))

/-- Word `w` lies in a 64-byte block that holds some of the `n` bytes of segment `g` from byte `o`. -/
def wordIn (s : Block) (g : Seg) (o n w : Nat) : Bool :=
  let last := o + n - 1
  decide (0 < n) && (List.range (last / 8192 + 1 - o / 8192)).any (fun k =>
    let v := o / 8192 + k
    match pte s (g.vpn + v) with
    | some e =>
      let x := v * 8192 + 8 * w % 8192
      e.ppn == w / 1024 && decide (o / 64 ≤ x / 64) && decide (x / 64 ≤ last / 64)
    | none => false)

/-- The blocks of `n` bytes of segment `id` from byte `o` read, and checked. -/
def checkSeg (s : Block) (req sub cmd id o n : Nat) : Block :=
  checkRead s req sub cmd (some id) (wordIn s (seg s id) o n)

/-! ## ACTIVE and release (R101, R119) -/

/-- A sequencer's fetch reaches the first frame of segment `id`. -/
def fetchSeg (s : Block) (n id : Nat) : Block :=
  let g := seg s id
  let st := if g.st = 2 || g.st = 5 then 3 else g.st
  setSeg s id { g with st := st, fetch := if g.fetch.contains n then g.fetch else g.fetch ++ [n] }

/-- Sequencer `n` has delivered the last frame it fetches of segment `id`: with no other fetch, a sealed
segment returns to SEALED; a ring member stays held until its successor plays (R119). -/
def unfetchSeg (s : Block) (n id : Nat) : Block :=
  let g := seg s id
  let f := g.fetch.erase n
  let st := if f.isEmpty && g.st = 3 && !g.member then 2 else g.st
  setSeg s id { g with fetch := f, st := st }

/-- A played ring member is released to STREAM_EMPTY (R119). -/
def releaseMember (s : Block) (id : Nat) : Block :=
  let g := seg s id
  if g.member && g.st = 3 then setSeg s id { g with st := 4 } else s

/-- SEG_SEAL's effect. -/
def sealSeg (s : Block) (id : Nat) : Block :=
  let g := seg s id
  if g.st = 1 then setSeg s id { g with st := 2 }
  else if g.st = 4 then setSeg s id { g with st := 5 }
  else s

/-! ## Pins and the loop cache (R107, R112, R113) -/

/-- One more armed sequencer pins `id`. -/
def pinSeg (s : Block) (id : Nat) : Block :=
  let g := seg s id
  setSeg s id { g with pin := g.pin + 1 }

/-- One armed sequencer fewer pins `id`; with none left its copy leaves the loop cache (R113). -/
def unpinSeg (s : Block) (id : Nat) : Block :=
  let g := seg s id
  let p := g.pin - 1
  setSeg s id { g with pin := p, lc := if p = 0 then 0 else g.lc }

/-- Free blocks of the loop cache (R112). -/
def lcFree (s : Block) : Nat := 512 - s.mem.segs.foldl (fun n p => n + p.2.lc) 0

/-- Sequencer `n` plays segment `id` from the loop cache (R113). -/
def cachedFor (s : Block) (n id : Nat) : Bool := decide (0 < (seg s id).lc) && !(seqr s n).lcOff.contains id

/-- The copy of segment `id` placed in the loop cache for the arm of sequencer `n`, where R112 allows. -/
def cacheSeg (n : Nat) (s : Block) (id : Nat) : Block :=
  let g := seg s id
  if g.member || g.lc != 0 || !(g.st = 2 || g.st = 3) || decide (524288 < segSize g) then s
  else if lcFree s < pagesOf (segSize g) then raise s F.MMU_STATUS_LC_FULL
  else setSeg (checkSeg s 12 n 0 id 0 (segSize g)) id { g with lc := pagesOf (segSize g) }

end Sys2Proof.Machine
end

