-- ==== Sys2Proof/Machine/Safe.lean ====
section
/-! DEFINITION. PATROL (R367 to R371), FAULT_N, and the entry of a region and of the package into SAFE
(R22, R303, R353, R356). -/

namespace Sys2Proof.Machine

/-! ## FAULT_N and the log -/

/-- FAULT_N follows its causes (R370); with VAON it is low throughout BOOT (Table 17-4). -/
def syncFaultN (s : Block) : Block :=
  let p := s.aon.on && (decide (getF s F.PATROL_FAULTN_CAUSE ≠ 0) || modeOf s == 0)
  setB (setB s F.PATROL_FAULTN_PIN p) F.GLOBAL_PINS_FAULT p

/-- Cause bit `c` of FAULT_N set (R370). -/
def faultN (s : Block) (c : Nat) : Block := syncFaultN (raise s ⟨R.PATROL_FAULTN, c, c⟩)

/-- An entry of the PATROL log (R371, Table 16-8). -/
def patrolLog (s : Block) (kind action count obj : Nat) : Block :=
  if flag s F.PATROL_CTRL_LOG_FREEZE then s
  else
    let e := getF s F.PATROL_LOG_HEAD_NEXT
    let ws := [s.sysTime, s.sysTime >>> 32, kind + action * 2 ^ 8 + (count % 2 ^ 16) * 2 ^ 16, obj]
    let log := (List.range 4).foldl (fun m i =>
      Tbl.set (fun _ => 0) m (4 * e + i) (Word.ofNat (ws.getD i 0))) s.sys.log
    let s := { s with sys := { s.sys with log := log } }
    let s := if 256 ≤ getF s F.PATROL_LOG_HEAD_TOTAL then raise s F.PATROL_STATUS_LOG_WRAP else s
    setF (incF s F.PATROL_LOG_HEAD_TOTAL) F.PATROL_LOG_HEAD_NEXT (e + 1)

/-! ## Transitions of units and lanes -/

/-- A transition of `u` scheduled for its first frame boundary at or after `due`. -/
def schedUnit (s : Block) (u due : Nat) (t : Trans) : Block :=
  let x := unit s u
  setUnit s u { x with trans := x.trans ++ [(due, t)] }

/-- The same for lane cluster `c`. -/
def schedLane (s : Block) (c due : Nat) (t : Trans) : Block :=
  let x := lane s c
  setLane s c { x with trans := x.trans ++ [(due, t)] }

/-- A unit not in PARK or FAULT is sent to FAULT at its first boundary after `e` (Table 04-2). It prevails over
what the boundary was to apply (Table 04-5): an enable, the closing of the switch at start-up; a RESUME committed before it
has nothing left to do. -/
def sendFault (viaSafe : Bool) (e : Nat) (s : Block) (u : Nat) : Block :=
  let x := unit s u
  let l := x.trans.filter (fun p => decide (p.2 ≠ .resume))
  let s := setUnit s u { x with trans := l }
  let o := x.hid.getD (getF s (uF u F.P_STATE_OSTATE))
  if (o = 0 || o = 4) && l.isEmpty then s else schedUnit s u (e + 1) (.fault viaSafe)

/-- What lane `j`'s mode makes of a level and a high-impedance request: driven level and whether it is
high-impedance (R167, R169). -/
def laneDrive (mode level z : Nat) : Nat × Nat :=
  match mode with
  | 0 => (if z = 0 then level else 0, z)
  | 1 => (0, if level = 1 || z = 1 then 1 else 0)
  | _ => (0, 1)

/-- The levels and the high-impedance mask that the lanes' modes in `cfg` make of the byte `v` with the lanes of `z` off
(R169). -/
def laneOut (cfg : Word) (v z : Nat) : Nat × Nat :=
  (List.range 8).foldl (fun a j =>
    let d := laneDrive (bits cfg (4 * j + 1) (4 * j)) (natBits v j j) (natBits z j j)
    (a.1 + d.1 * 2 ^ j, a.2 + d.2 * 2 ^ j)) (0, 0)

/-- The levels and the high-impedance mask that `p` gives cluster `c` (Table 08-3). -/
def laneLevels (s : Block) (c : Nat) (p : LanePin) : Nat × Nat :=
  let lv := fun f => getF s (lF c f)
  match p.st with
  | 0 => (0, 255)
  | 1 => laneOut p.cfg (lv F.LC_LEVELS_IDLE) (lv F.LC_LEVELS_IDLE_Z)
  | 4 => laneOut p.cfg (lv F.LC_LEVELS_SAFE) (lv F.LC_LEVELS_SAFE_Z)
  | _ => laneOut p.cfg p.byte 0

/-- LCFG of cluster `c` in force. -/
def laneCfg (s : Block) (c : Nat) : Word := getW s (unitBase (96 + c) + R.LC_LCFG)

/-- What the present state of `c` drives is on its way to the pins, to arrive at `due`. -/
def lanePut (s : Block) (c due : Nat) : Block :=
  let x := lane s c
  setLane s c { x with pipe := x.pipe ++ [⟨due, getF s (lF c F.LC_STATE_CSTATE), x.byte, laneCfg s c⟩] }

/-- The first 5 ns bit boundary later than `t` (R170). -/
def nextBit (t : Nat) : Nat := t + 5 - t % 5

/-- What is on its way to the pins of `c` for `d` or later never comes: at `d` the pins take what `p` gives, without
waiting for the pipeline (R170). -/
def laneCut (s : Block) (c d : Nat) (p : LanePin) : Block :=
  let x := lane s c
  setLane s c { x with pipe := x.pipe.filter (fun q => decide (q.due < d)) ++ [{ p with due := d }] }

/-- A cluster not in PARK takes its SAFE levels at the first 5 ns boundary after `e` (R170), and an eye measurement drives
its lanes no longer. LCFG strobed at that very
boundary acts after the RESUME_FROM_SAFE only (Table 08-4). -/
def laneSafe (e : Nat) (s : Block) (c : Nat) : Block :=
  if getF s (lF c F.LC_STATE_CSTATE) = 0 then s
  else
    let x := lane s c
    let cfg := if x.cfgAt = e + 1 then x.cfgOld else laneCfg s c
    let s := setF s (lF c F.LC_STATE_CSTATE) 4
    let s := setLane s c { x with
      byte := 0, trans := [], underrunSafe := false, safeAt := e + 1
      prbsTo := if x.prbsTo = 0 then nextBit e else x.prbsTo }
    laneCut s c (nextBit e) { st := 4, cfg := cfg }

/-- The lanes of LC7 in IN mode. -/
def inputLanes (s : Block) : List Nat :=
  (List.range 8).filter (fun j => bits (laneCfg s 7) (4 * j + 1) (4 * j) == 3)

/-- LEVEL after a change of LCFG: a lane that was in IN mode keeps its level, one that has come to it starts from
the level at its pin, any other reads 0. -/
def syncInputs (s : Block) (old : List Nat) : Block :=
  let lv := getF s (lF 7 F.LC_INCFG_LEVEL)
  let x := lane s 7
  let v := (inputLanes s).foldl (fun a j =>
    a + b2n (if old.contains j then lv.testBit j else x.raw.testBit j && !x.vioOff) * 2 ^ j) 0
  if v = lv then s else syncLevels (setF s (lF 7 F.LC_INCFG_LEVEL) v)

/-! ## Sequencers -/

/-- STATE, CUR and the frame registers of sequencer `n` follow what it is doing (Tables 06-11 to 06-14). -/
def syncSeq (s : Block) (n : Nat) : Block :=
  let q := seqr s n
  let f := fun (s : Block) (x : Fld) (b : Bool) => setB s (qF n x) b
  let s := f s F.SEQ_STATE_GWAIT (q.mode == 3 || q.mode == 4)
  let s := f s F.SEQ_STATE_IDLEP (q.mode == 4)
  let s := f s F.SEQ_STATE_UHOLD (q.mode == 5)
  let s := f s F.SEQ_STATE_REPLAY (q.mode == 2)
  let s := f s F.SEQ_STATE_GLATCH q.gateLat.isSome
  let s := f s F.SEQ_STATE_LATE_PEND (q.latches.any (fun l => l.2.late))
  let s := f s F.SEQ_STATE_LCACHE (q.mode != 0 && cachedFor s n q.seg)
  let s := f s F.SEQ_CUR_VALID (q.mode != 0)
  setF s (qF n F.SEQ_STATE_JLATCH) (q.latches.foldl (fun a l => a + 2 ^ l.1) 0)

/-- Latches not taken, recorded with the deciding step (R135). -/
def recordLost (s : Block) (n : Nat) (l : List Nat) : Block :=
  if l.isEmpty then s
  else
    let s := raise s (qF n F.SEQ_STATUS_JUMP_LOST)
    let s := setF s (qF n F.SEQ_LOST_IN) (l.foldl (fun a k => a + 2 ^ k) 0)
    setF s (qF n F.SEQ_LOST_STEP) (getF s (qF n F.SEQ_CUR_STEP))

/-- An event of frame `f` of sequencer `n`, due EVDLY frames later (R142). -/
def seqEmit (s : Block) (n src hop f sink : Nat) : Block :=
  let q := seqr s n
  fireBy s src hop (q.t0 + (f + getF s (qF n F.SEQ_EVDLY_FRAMES)) * groupT (group s n)) sink

/-- The pins, the loop-cache holdings and the start admission of sequencer `n`'s arm go, and every latch is
cleared; a ring member it still holds is released (R127). -/
def disarm (s : Block) (n : Nat) : Block :=
  let q := seqr s n
  let s := forEach q.pins s unpinSeg
  let s := forEach q.pins s (fun s id => unfetchSeg s n id)
  let s := forEach q.pins s releaseMember
  let s := { s with sys := { s.sys with queue := s.sys.queue.filter (fun r => r.owner != .seq n) } }
  let s := setF s F.POWER_QSTAT_QUEUED s.sys.queue.length
  let s := setSeq s n { frame := q.frame }
  let s := syncSeq s n
  if q.admitted then pacRelease s 7 500 else s

/-- Sequencer `n` holds the first granule of segment `id` no more as a candidate: a sealed segment that nothing fetches
returns to SEALED, a ring member that has not played to STREAM_FILLED. -/
def dropPre (n : Nat) (s : Block) (id : Nat) : Block :=
  let s := unfetchSeg s n id
  let g := seg s id
  if g.member && g.st = 3 && g.fetch.isEmpty then setSeg s id { g with st := 5 } else s

/-- The events that sequencer `n` was still to take find it not running: dropped as such (R133, R137, R145), and a SEQ_JUMP
among them completes with RESULT 0. -/
def dropEvents (s : Block) (n : Nat) : Block :=
  let q := seqr s n
  forEach q.evq (setSeq s n { q with evq := [] }) (fun s v =>
    match v with
    | .jump k e cmd _ =>
      let s := raise s (qF n F.SEQ_STATUS_JUMP_IGNORED)
      match s.cmd.jobs.find? (fun j => cmd && j.op == Op.seqJump && pb j.p 1 3 0 == n && pb j.p 1 9 8 == k &&
          j.todo.headD 0 == e) with
      | some j => endJob s j Sts.ok 0
      | none => s
    | .gate _ => raise s (qF n F.SEQ_STATUS_GATE_DROP)
    | .stop .. => raise s (qF n F.SEQ_STATUS_POVR))

/-- The CARVE chain read for an entry that does not come is not applied (R144). -/
def dropCarve (s : Block) (n from' : Nat) : Block :=
  forEach (List.range 64) s (fun s u =>
    let x := unit s u
    if x.carveQ.any (fun c => c.2.1 == n && decide (from' ≤ c.1)) then
      setUnit s u { x with carveQ := x.carveQ.filter (fun c => !(c.2.1 == n && decide (from' ≤ c.1))) }
    else s)

/-- Sequencer `n` delivers no frame from its next frame on: state `st` with its cause, the latches lost, and
the sequence end emitted (R142, R146); one that never began its frame 0 emits it at the edge. A stop that
disarms takes it to IDLE (R127). -/
def seqEnd (s : Block) (n st cause hop : Nat) : Block :=
  let q := seqr s n
  let s := recordLost s n (q.latches.map (fun l => l.1))
  let s := forEach q.pre s (dropPre n)
  let s := match q.carved with
    | some f => if q.frame ≤ f then dropCarve s n (q.t0 + f * groupT (group s n)) else s
    | none => s
  let s := unfetchSeg s n q.seg
  let s := if q.mode = 4 then unfetchSeg s n (getF s (qF n F.SEQ_IDLE_SEG)) else s
  let s := setF (setF s (qF n F.SEQ_STATE_SSTATE) st) (qF n F.SEQ_STATE_CAUSE) cause
  let s := if st = 5 then raise s (qF n F.SEQ_STATUS_ENDED) else s
  let s := setSeq s n { q with mode := 0, startAt := none, succ := none, latches := [], cut := none,
                               gateLat := none, release := none, stop := none, decided := false,
                               readDone := false, carved := none, pre := [] }
  let s := if q.played then seqEmit s n (32 + n) hop q.frame (7 * n + 6)
    else fireBy s (32 + n) hop (nextEdge s) (7 * n + 6)
  let late := q.evq.any (fun v => match v with
    | .stop _ _ _ _ d => d
    | _ => false)
  let dis := late || (match q.stop with
    | some x => x.disarm
    | none => false)
  let s := dropEvents s n
  let s := if dis then setF (disarm s n) (qF n F.SEQ_STATE_SSTATE) 0 else s
  syncLevels (syncSeq s n)

/-- An armed or running sequencer stops at once (R147). -/
def seqKill (cause : Nat) (s : Block) (n : Nat) : Block :=
  let st := getF s (qF n F.SEQ_STATE_SSTATE)
  if st = 2 || st = 3 then seqEnd s n 4 cause 0 else s

/-! ## The end of a mode change -/

/-- CHANGING returns to 0 and MODE_LAST records a change abandoned for `reason` (R353). -/
def abandonMode (s : Block) (reason detail status : Nat) : Block :=
  match s.sys.change with
  | none => s
  | some c =>
    let g := { s.gyden with commit := 0, commitN := 0, commitE := none, prep := false }
    let s := { s with sys := { s.sys with change := none }, gyden := g }
    let s := setF s F.GLOBAL_MODE_CHANGING 0
    let s := setF (setF s F.POWER_MODE_LAST_ABANDONED 1) F.POWER_MODE_LAST_TARGET c.target
    let s := setF (setF s F.POWER_MODE_LAST_REASON reason) F.POWER_MODE_LAST_DETAIL detail
    match s.cmd.jobs.find? (fun j => j.op == Op.modeSet) with
    | some j => endJob s { j with result := reason } status detail
    | none => s

/-! ## SAFE -/

/-- The grants a unit command obtained (its `todo` after the head: unit + 64 × mW) are released, and its
queued requests withdrawn (R301). -/
def dropGrants (s : Block) (j : Job) : Block :=
  let q := s.sys.queue.filter (fun r => r.id != j.id)
  let s := setQueue s q
  let s := (j.todo.drop 1).foldl (fun s e =>
    let u := e % 64
    let x := unit s u
    let n := min x.grant (e / 64)
    let s := setUnit s u { x with grant := x.grant - n }
    let s := setB s (uF u F.P_STATE_GRANT) (decide (n < x.grant))
    pacUncharge s (regionOf u) n false) s
  pacVisit s

/-- GRANT_WAIT goes, on every unit a command names. -/
def endPause (s : Block) (j : Job) : Block :=
  forEach (bitList (pw64 j.p 1) 64) s (fun s u => setF s (strF u F.STR_STEVT_GRANT_WAIT) 0)

/-- How a command in progress or waiting ends at a package SAFE (Table 13-1, R365). -/
def jobAtSafe (s : Block) (j : Job) : Block :=
  if j.op = Op.unitEnable then
    dropGrants (endJob (endPause s j) j Sts.state 0) j
  else if j.op = Op.unitDisable then endJob s j Sts.aborted 0
  else if j.op = Op.unitRange then dropGrants (endJob s j Sts.aborted 0) j
  else if j.op = Op.seqStart then endJob s j Sts.aborted 0
  else if j.op = Op.seqStop then endJob s j Sts.ok 0
  else if j.op = Op.pacReserve then dropGrants (endJob s j Sts.aborted 0) { j with todo := [] }
  else s

/-- Every request still queued is withdrawn at a package SAFE (R365). A command that Table 13-1 lets run on cannot do so
without its power and ends as withdrawn, ABORTED (DEDUCED, log entry 33). -/
def withdrawAll (s : Block) : Block :=
  forEach s.sys.queue (setQueue s []) (fun s r => markRefused (freeHandleOf s r) r Sts.aborted)

/-- The package enters SAFE at the next f_M edge (R356). Already in SAFE only the cause changes; in BOOT
SAFE is taken at step 7 of the start-up alone, and SLEEP takes none (Table 16-1). -/
def packageSafe (s : Block) (cause : Nat) : Block :=
  let m := modeOf s
  if m = 0 || m = 5 then s
  else if m = 4 then setF s F.POWER_SAFE_CAUSE_CAUSE cause
  else
    let e := nextEdge s
    let s := setF s F.POWER_SAFE_CAUSE_CAUSE cause
    let s := set64 s F.POWER_SAFE_TIME_LO_NS F.POWER_SAFE_TIME_HI_NS e
    let s := raise s F.POWER_STATUS_SAFE
    let s := abandonMode s 6 0xFFFF Sts.aborted
    let s := setF s F.GLOBAL_MODE_CUR 4
    let s := forEach (List.range 16) s (seqKill 5)
    let s := forEach (List.range 64) s (sendFault true e)
    let s := forEach (List.range 8) s (laneSafe e)
    let s := s.cmd.jobs.foldl jobAtSafe s
    let s := withdrawAll s
    let s := patrolLog s 0x22 0 0 0
    if flag s F.POWER_CTRL_SAFE_PROP then { s with sys := { s.sys with announce := true } } else s

/-- Region `i` enters SAFE (R22): its units go to FAULT, its acquisition words stop; it is no longer a
party of a mode change (R352). -/
def regionSafe (s : Block) (i : Nat) : Block :=
  let b := 2 ^ i
  if (getF s F.PATROL_RGN_STATE_SAFE).testBit i then s
  else
    let s := setF s F.PATROL_RGN_STATE_SAFE (getF s F.PATROL_RGN_STATE_SAFE + b)
    let s := setF s F.PATROL_RGN_STATE_HELD (getF s F.PATROL_RGN_STATE_HELD ||| b)
    let s := setF s F.GLOBAL_MODE_RGN_SAFE (getF s F.PATROL_RGN_STATE_SAFE)
    let s := forEach (regionUnits i) s (sendFault true s.sysTime)
    let s := match s.sys.change with
      | none => s
      | some c =>
        let gone := fun p => p != 0x200 + i && !(regionUnits i).contains p
        let c := { c with parties := c.parties.filter gone, ready := c.ready.filter gone }
        { s with sys := { s.sys with change := some c } }
    patrolLog s 0x21 0 0 i

/-! ## PATROL -/

/-- A field of class `c`. -/
def clsF (c : Nat) (f : Fld) : Fld := f.at (c * 0x10)

/-- A unit's DISABLE action: FAULT, and its bit of DIS_PD (R369). -/
def patrolDisable (s : Block) (u : Nat) : Block :=
  let f : Fld := if u < 32 then ⟨R.PATROL_DIS_PD_LO, u, u⟩ else ⟨R.PATROL_DIS_PD_HI, u - 32, u - 32⟩
  if flag s f then s else sendFault false s.sysTime (setF s f 1) u

/-- The SAFE action of class `c` on its object (R369). -/
def patrolSafe (s : Block) (c obj : Nat) : Block :=
  if c = 1 || c = 2 then regionSafe s (regionOf obj)
  else if c = 3 then regionSafe s obj
  else if c = 6 then
    if obj = 2 then packageSafe s 7 else regionSafe (regionSafe s (2 * obj)) (2 * obj + 1)
  else packageSafe s 4

/-- The action of a lasting fault (R369, R370). -/
def patrolLasting (s : Block) (c obj count : Nat) : Block :=
  let act := getF s (clsF c F.PATROL_CLS0_CFG_ACTION) ||| (if c = 6 then 4 else 0)
  let s := setF s ⟨R.PATROL_STATUS, c, c⟩ 1
  let s := incF s F.PATROL_LASTINGS_COUNT
  let s := setF (setF s F.PATROL_LAST_LASTING_CLASS c) F.PATROL_LAST_LASTING_OBJECT obj
  let s := patrolLog s (0x10 + c) (act % 16) count obj
  let s := if act.testBit 0 && c = 0 && obj < 0x80000000 then
      (if s.sys.retire.contains obj then s
        else { s with sys := { s.sys with retire := s.sys.retire ++ [obj] } }) else s
  let s := if act.testBit 1 && (c = 1 || c = 2) then patrolDisable s obj else s
  let s := if act.testBit 2 && c != 0 then patrolSafe s c obj else s
  if act.testBit 3 then faultN s c else s

/-- The windows open at the present time, with class `c`'s count shown in CLSc_LAST.OPEN. -/
def setWindows (s : Block) (c : Nat) (l : List Window) : Block :=
  let s := { s with sys := { s.sys with windows := l } }
  setF s (clsF c F.PATROL_CLS0_LAST_OPEN) (l.countP (fun w => w.cls == c))

/-- One event of class `c` on an object (R368). -/
def patrolEvent (s : Block) (c obj : Nat) : Block :=
  let s := incF s (clsF c F.PATROL_CLS0_CNT_COUNT)
  let s := setF s (clsF c F.PATROL_CLS0_LAST_OBJECT) obj
  let mine := fun (w : Window) => w.cls == c && w.obj == obj
  let open' := s.sys.windows.filter (fun w => !mine w || decide (s.now < w.opened + w.win))
  match open'.find? mine with
  | some w =>
    let n := w.count + 1
    if w.thresh ≤ n then
      patrolLasting (setWindows s c (open'.filter (fun x => !mine x))) c obj n
    else
      let s := incF s F.PATROL_TRANSIENTS_COUNT
      setWindows s c (open'.map (fun x => if mine x then { x with count := n } else x))
  | none =>
    let win := min 60000 (max 1 (getF s (clsF c F.PATROL_CLS0_CFG_WIN))) * 1000000
    let th := max 1 (getF s (clsF c F.PATROL_CLS0_CFG_THRESH))
    let full := c = 0 && decide (64 ≤ open'.countP (fun w => w.cls == 0))
    let s := if full then raise (incF s F.PATROL_TRK_OVF_COUNT) F.PATROL_STATUS_TRK_OVF else s
    let kept := if full then
        match open'.find? (fun w => w.cls == 0) with
        | some w => open'.erase w
        | none => open'
      else open'
    let s := patrolLog s c 0 1 obj
    if th ≤ 1 then patrolLasting (setWindows s c kept) c obj 1
    else
      let s := incF s F.PATROL_TRANSIENTS_COUNT
      setWindows s c (kept ++ [⟨c, obj, s.now, win, th, 1⟩])

/-- A single fault recovered (R372). -/
def recovered (s : Block) : Block := incF s F.PATROL_RECOVERIES_COUNT

end Sys2Proof.Machine
end

