-- ==== Sys2Proof/Machine/Units.lean ====
section
/-! DEFINITION. P and D units frame by frame: ranges (R48 to R53), calibration correction (R40), output
states and SNOWPLOUGH (R76 to R93), alarms (R18, R54). -/

namespace Sys2Proof.Machine

/-! ## Ranges -/

/-- A current range. -/
def isCurrent (code : Nat) : Bool := decide (8 ≤ code)

/-- The ratiometric range. -/
def isRatio (u code : Nat) : Bool := decide (u < 48) && code == 4

/-- Full scale of a voltage range in mV × 1, of a current range in 0.1 mA (Tables 02-6, 02-7). -/
def fullScale (u code : Nat) : Nat :=
  if u < 48 then
    match code with
    | 0 => 25
    | 1 => 100
    | 2 => 1000
    | 3 => 10000
    | 4 => 5
    | _ => 25
  else if code = 0 then 10000 else 240

/-- The slot of a range (Tables 02-6, 02-7). -/
def rangeSlot (u code : Nat) : Nat :=
  if u < 48 then (if code = 8 then 5 else code) else if code = 8 then 1 else if code = 9 then 2 else 0

/-- A change between these ranges passes through zero (R90). -/
def zeroChange (u a b : Nat) : Bool :=
  isCurrent a != isCurrent b || isRatio u a != isRatio u b

/-- A code of range `a` as a code of range `b`, to nearest with ties to even (R90). -/
def convertCode (u a b : Nat) (v : Int) : Int :=
  divEven (v * fullScale u a) (fullScale u b)

/-- The range-change value as a code of the old and of the new range (R90). -/
def changeValue (s : Block) (u a b : Nat) : Int × Int :=
  if zeroChange u a b then (0, 0)
  else
    let v := signed 28 (getF s (strF u F.STR_RCHGV_VAL))
    if fullScale u a ≤ fullScale u b then (v, convertCode u a b v) else (convertCode u b a v, v)

/-- The range of RANGE.SEL in force. -/
def selRange (s : Block) (u : Nat) : Nat := getF s (uF u F.P_RANGE_SEL)

/-- The largest code magnitude, 2^27 − 1 (R37). -/
def maxCode : Int := 134217727

/-! ## Alarms -/

/-- The cluster's alarm source fires for unit `u` (R18); several onsets in one router cycle fire it once (R54). -/
def clusterAlarm (s : Block) (u : Nat) : Block :=
  let src := 160 + clusterOf u
  let c := floorTo s.sysTime 5
  if s.fires.any (fun f => f.src == src && floorTo f.due 5 == c) ||
      s.event.bus.any (fun e => e.1 == src && e.2.2 == c) then s
  else fire s src 0 s.sysTime

/-- STATUS bit `b` (0 CLIP, 1 COMPLIANCE, 2 MOD_OVL, 3 SENSE_OPEN) of unit `u` set; a change from 0 to 1
that ALM_EN selects fires the alarm source (R54). -/
def unitFlag (s : Block) (u b : Nat) : Block :=
  let f : Fld := ⟨unitBase u + R.P_STATUS, b, b⟩
  if flag s f then raise s f
  else
    let s := raise s f
    let bitNo := if b = 3 then 3 else b
    if (getF s (uF u F.P_CTRL_ALM_EN)).testBit bitNo then clusterAlarm s u else s

/-! ## Calibration correction (R40, R41) -/

/-- The word at byte address `a` of the table banks (Table 14-1). -/
def tableWord (s : Block) (a : Nat) : Nat := (Tbl.get (fun _ => (0 : Word)) s.tables a).toNat

/-- The correction record of unit `u`, bank and slot (R41, R337). -/
def recordBase (u bank slot : Nat) : Nat :=
  let w := if u < 48 then u * 0x1000 else if u < 64 then 0x30000 + (u - 48) * 0x1000
    else 0x40000 + (u - 64) * 0x1000
  w + bank * 0x800 + slot * 0x100

/-- Half-word `i` of a record. -/
def recordHalf (s : Block) (base off : Nat) : Int :=
  let w := tableWord s (base + off - off % 4)
  signed 16 (if off % 4 = 0 then w else w >>> 16)

/-- Stage 4: the corrected value of code `x`, LSB 2^-30 of full scale, before the clamp (R40). `dt` is in
1/128 K. -/
def correctRaw (s : Block) (base : Nat) (dt x : Int) : Int :=
  let g := signed 24 (tableWord s base)
  let o := signed 24 (tableWord s (base + 4))
  let tcg := recordHalf s base 8
  let tco := recordHalf s base 10
  let pos : Nat := Int.toNat (x + 134217728)
  let k : Nat := min 31 (pos / 8388608)
  let rem : Int := (pos : Int) - (k : Int) * 8388608
  let b0 := recordHalf s base (0x10 + 2 * k)
  let b1 := recordHalf s base (0x12 + 2 * k)
  let inl := b0 * 2 ^ 23 + (b1 - b0) * rem
  divEven (8 * x * (2 ^ 41 + g * 2 ^ 11 + tcg * dt) + o * 2 ^ 41 + tco * dt * 2 ^ 30 + inl * 2 ^ 18)
    (2 ^ 41)

/-- ±1.0625 of full scale (R40). -/
def clampY : Int := 1140850688

/-- The code that a unit's range plays: a negative code of 0–24 mA plays as 0 mA (R52). -/
def playedCode (u : Nat) (x : UnitSt) : Int :=
  if decide (48 ≤ u) && x.rng == 8 && decide (x.x < 0) then 0 else x.x

/-- The reference path of a calibration holds unit `u` of R299. -/
def onCalPath (s : Block) (u : Nat) : Bool :=
  match s.cal.run with
  | some r => r.busy.any (fun p => p.1 == u)
  | none => false

/-- Stage 4 of unit `u` on the code it supplies: the corrected value, and CLIP where the clamp acts or a
negative code plays as 0 mA. Temperature compensation stays on during a calibration of the unit (R336). -/
def stage4 (s : Block) (u : Nat) : Block :=
  let x := unit s u
  let base := recordBase u (getF s (uF u F.P_STATE_CBANK)) (rangeSlot u x.rng)
  let dt := if flag s (uF u F.P_CTRL_TEMPCO) || calNamed s u then x.temp - recordHalf s base 0x0C else 0
  let y := correctRaw s base dt (playedCode u x)
  let s := setUnit s u { x with y := clampI (-clampY) clampY y }
  let s := setF s (uF u F.P_MONITOR_CODE) (unsigned 28 x.x)
  if y < -clampY || clampY < y || playedCode u x ≠ x.x then unitFlag s u 0 else s

/-! ## SNOWPLOUGH (R84 to R86) -/

/-- The slope limit M × 2^E: SLEW, or the NVM slope where its mantissa is 0 (Table 02-16). -/
def slewOf (s : Block) (u : Nat) : Nat :=
  let m := getF s (uF u F.P_SLEW_MANT)
  if m = 0 then getF s (strF u F.STR_RAMP_NV_MANT) * 2 ^ getF s (strF u F.STR_RAMP_NV_EXP)
  else m * 2 ^ getF s (uF u F.P_SLEW_EXP)

/-- The enable slope, or SLEW where its mantissa is 0 (R84). -/
def enSlewOf (s : Block) (u : Nat) : Nat :=
  let m := getF s (strF u F.STR_RAMP_EN_MANT)
  if m = 0 then slewOf s u else m * 2 ^ getF s (strF u F.STR_RAMP_EN_EXP)

/-- The jerk limit of a D unit in force, or the NVM jerk where its mantissa is 0 (Table 02-28). -/
def jerkOf (s : Block) (u : Nat) : Nat :=
  let m := getF s (uF u F.D_JERK_MANT)
  if m = 0 then getF s (strF u F.STR_JRAMP_NJ_MANT) * 2 ^ getF s (strF u F.STR_JRAMP_NJ_EXP)
  else m * 2 ^ getF s (uF u F.D_JERK_EXP)

/-- The limits of unit `u` as they stand: slope, enable slope, jerk. -/
def limsNow (s : Block) (u : Nat) : Nat × Nat × Nat := (slewOf s u, enSlewOf s u, if u < 48 then 0 else jerkOf s u)

/-- The limits are about to change at this instant: those in force until now are kept (R85). -/
def noteLims (s : Block) (u : Nat) : Block :=
  let x := unit s u
  setUnit s u { x with lims := x.lims ++ [(s.sysTime, limsNow s u)] }

/-- The limits that act on the frame at boundary `b`: a value that reached the unit at `b` or later acts from a later
frame (R85, Table 04-5). -/
def limsAt (s : Block) (u b : Nat) : Nat × Nat × Nat :=
  match (unit s u).lims.find? (fun p => decide (b ≤ p.1)) with
  | some p => p.2
  | none => limsNow s u

/-- Limits replaced before boundary `b` are of no more use after it. -/
def dropLims (s : Block) (u b : Nat) : Block :=
  let x := unit s u
  if x.lims.isEmpty then s else setUnit s u { x with lims := x.lims.filter (fun p => decide (b ≤ p.1)) }

/-- The NVM slope (Table 04-9). -/
def nvSlopeOf (s : Block) (u : Nat) : Nat :=
  getF s (strF u F.STR_RAMP_NV_MANT) * 2 ^ getF s (strF u F.STR_RAMP_NV_EXP)

/-- s·T in whole codes, ties to even; 0 acts as one code (R84). `t` is in ns. -/
def slopeStep (m t : Nat) : Int := max 1 (divEven ((m * t : Nat) : Int) 32000)

/-- n_j of R84. -/
def jerkFrames (m j t : Nat) : Nat :=
  if j * t = 0 then 1 else max 1 ((2 * m * 256000 + j * t - 1) / (j * t))

/-- `x` moved toward `d` by at most `k`. -/
def approach (x d k : Int) : Int := if d - x ≤ k && x - d ≤ k then d else if x < d then x + k else x - k

/-- The sum of the inner ramp over the last `n` frames, frames before the ramp counting at its start. -/
def histSum (start : Int) : Nat → List Int → Int
  | 0, _ => 0
  | n + 1, [] => start + histSum start n []
  | n + 1, r :: t => r + histSum start n t

/-- One ramp frame of unit `u` toward `tv` with slope `m` and jerk `j`, and whether the ramp ends with it (R84). -/
def rampFrame (s : Block) (u m j t : Nat) (tv : Int) : UnitSt × Bool :=
  let x := unit s u
  let k := slopeStep m t
  if u < 48 then
    let v := approach x.x tv k
    ({ x with x := v }, v == tv)
  else
    let r := approach x.r tv k
    let hist := r :: x.hist
    let nj := jerkFrames m j t
    let y := divEven (histSum x.start nj hist) nj
    if tv - y ≤ 128 && y - tv ≤ 128 then ({ x with r := r, hist := hist, x := tv }, true)
    else ({ x with r := r, hist := hist, x := y }, false)

/-! ## State changes -/

/-- The state the state controller is in: a switch between modes shows PARK at the pin meanwhile. -/
def ostate (s : Block) (u : Nat) : Nat := (unit s u).hid.getD (getF s (uF u F.P_STATE_OSTATE))

/-- The output state and ramp target shown (Table 02-14). -/
def setOstate (s : Block) (u o sp : Nat) : Block :=
  let x := unit s u
  let s := if x.hid.isSome then setUnit s u { x with hid := some o } else setF s (uF u F.P_STATE_OSTATE) o
  setF s (uF u F.P_STATE_SP_TARGET) sp

/-- The series switch of unit `u` is open for the frame that enters its chain: in PARK, and in FAULT under FAULT_PARK
(R76, Table 04-2). It opens at that frame's pin time (R88). -/
def switchOpen (s : Block) (u : Nat) : Bool :=
  ostate s u == 0 || (ostate s u == 4 && flag s (strF u F.STR_SCFG_FAULT_PARK))

/-- SP_TARGET of a goal. Table 02-14 has no code for a value held in HOLD: it shows 2, the playback value the ramp turns
to (DESIGN CHOICE, log entry 46), and a ramp to PARK before SLEEP shows 0. -/
def goalCode (g : Goal) : Nat :=
  match g with
  | .rest => 0
  | .fault => 1
  | .play => 2
  | .value _ _ => 2
  | .park => 0

/-- The range a goal lies in (R78). -/
def goalRange (s : Block) (u : Nat) (g : Goal) : Nat :=
  match g with
  | .rest => getF s (strF u F.STR_SCFG_RRANGE)
  | .fault => getF s (strF u F.STR_SCFG_FRANGE)
  | .play => selRange s u
  | .value _ _ => selRange s u
  | .park => getF s (strF u F.STR_SCFG_RRANGE)

/-- The value held in HOLD, a code `v` of range `r`, in the range RANGE.SEL selects: converted, or zero (R90). -/
def heldValue (s : Block) (u : Nat) (v : Int) (r : Nat) : Int :=
  if zeroChange u r (selRange s u) then 0 else convertCode u r (selRange s u) v

/-- The fixed value of a goal; `pv` is the playback value (R78). A held value is clipped at full scale (R90). -/
def goalValue (s : Block) (u : Nat) (g : Goal) (pv : Int) : Int :=
  match g with
  | .rest => signed 28 (getF s (strF u F.STR_RESTV_VAL))
  | .fault => signed 28 (getF s (strF u F.STR_FAULTV_VAL))
  | .play => pv
  | .value v r => clampI (-maxCode) maxCode (heldValue s u v r)
  | .park => 0

/-- F of R91 in frames. -/
def switchFrames (t : Nat) (mode : Bool) : Nat :=
  if mode then (200000 + t - 1) / t else max 1 ((100000 + t - 1) / t)

/-- CLIP where the held value exceeds the full scale of the range selected (R90). -/
def clipHeld (s : Block) (u : Nat) (g : Goal) : Block :=
  match g with
  | .value v r =>
    if goalValue s u g 0 = heldValue s u v r then s else unitFlag s u 0
  | _ => s

/-- The strobe under which a range change toward `g` that begins at boundary `b` begins: the one that applied at it,
where the goal follows RANGE.SEL (R92). -/
def changeStrobe (s : Block) (u b : Nat) (g : Goal) : Option StrobeKey :=
  match g with
  | .play | .value _ _ => (unit s u).lastStrobe.filter (fun k => k.2.2 == b)
  | _ => none

/-- A ramp toward `g` begins, or an existing one turns to it; a goal in another range runs a range change
first (R78, R84, R90). -/
def startRamp (s : Block) (u b : Nat) (g : Goal) : Block :=
  let s := clipHeld s u g
  let x := unit s u
  let going := ostate s u = 5
  let x := if going then { x with goal := g, nvSlope := x.nvSlope && x.goal == g }
    else { x with goal := g, r := x.x, hist := [], start := x.x, nvSlope := false }
  let tgt := goalRange s u g
  if tgt = x.rng then
    let s := setUnit s u { x with rc := none }
    let s := if x.actQ.isEmpty then setF s (strF u F.STR_STEVT_RCHG) 0 else s
    setOstate s u 5 (goalCode g)
  else
    let v := changeValue s u x.rng tgt
    let mode := isCurrent x.rng != isCurrent tgt
    let c : RangeChange := ⟨tgt, v.1, v.2, mode, changeStrobe s u b g, false, 0, switchFrames (unitT s u) mode⟩
    let s := setUnit s u { x with rc := some c }
    setOstate (setF s (strF u F.STR_STEVT_RCHG) 1) u 5 3

/-- The ramp in course, where its goal now lies in another range than the one it heads for, by a strobe or by a record
committed meanwhile, begins a range change to it, or drops the one not yet at its switch (R78, R82, R90). A unit that
waits for a grant changes no range meanwhile (R87). -/
def seekRange (s : Block) (u b : Nat) : Block :=
  let x := unit s u
  let have' := match x.rc with
    | some c => c.tgt
    | none => x.rng
  let free := match x.rc with
    | some c => c.p == 0
    | none => true
  if ostate s u = 5 && free && !flag s (strF u F.STR_STEVT_GRANT_WAIT) && goalRange s u x.goal != have' then
    startRamp s u b x.goal
  else s

/-- A shutdown that will not complete (R88): one in course, or one whose boundary has not come. -/
def overtaken (s : Block) (u : Nat) : Block :=
  if (unit s u).disabling || decide ((unit s u).sd = 3) then
    raise (setUnit s u { unit s u with disabling := false, sd := 2 }) (strF u F.STR_STEVT_SD_OVERTAKEN)
  else s

/-- An enable overtakes the shutdown in course (R89); one committed after the enable has still to apply, and prevails
(Table 04-5). -/
def overtakenByEnable (s : Block) (u : Nat) : Block := if (unit s u).disabling then overtaken s u else s

/-- A unit's bit of DIS_PD cleared (R369). -/
def clearDis (s : Block) (u : Nat) : Block :=
  setF s (if u < 32 then ⟨R.PATROL_DIS_PD_LO, u, u⟩ else ⟨R.PATROL_DIS_PD_HI, u - 32, u - 32⟩) 0

/-- The switch of a range change is under way: frames p + 1 to p + F (R91, R93). -/
def switching (s : Block) (u : Nat) : Bool :=
  match (unit s u).rc with
  | some c => c.p != 0
  | none => false

/-- A switch closes on range `r` at the pin time of the frame at `b`: RANGE.ACT follows (R77). -/
def actAt (s : Block) (u b r : Nat) : Block :=
  let x := unit s u
  if getF s (uF u F.P_RANGE_ACT) = r && x.actQ.isEmpty then s
  else setUnit s u { x with actQ := x.actQ ++ [(b + latFrames s u * unitT s u, r)] }

/-- The switch of a parked unit closes at boundary `b` with the chain at `v` in range `r` (Table 04-2); a switch that a
failed change left open is open no more once that frame is at the pin. -/
def closeSwitch (s : Block) (u b : Nat) (v : Int) (r : Nat) : Block :=
  actAt (setUnit s u { unit s u with x := v, rng := r, hid := none }) u b r

/-- The same at the rest value. -/
def closeAtRest (s : Block) (u b : Nat) : Block :=
  closeSwitch s u b (signed 28 (getF s (strF u F.STR_RESTV_VAL))) (getF s (strF u F.STR_SCFG_RRANGE))

/-- A parked unit's switch closes at 0 in the fault range and its ramp runs to FAULT (R392). -/
def closeToFault (s : Block) (u b : Nat) (viaSafe : Bool) : Block :=
  let s := setUnit s u { unit s u with viaSafe := viaSafe }
  startRamp (closeSwitch s u b 0 (getF s (strF u F.STR_SCFG_FRANGE))) u b .fault

/-- The unit is on its way to FAULT. -/
def toFault (s : Block) (u : Nat) : Bool := ostate s u == 5 && decide ((unit s u).goal = .fault)

/-- One transition of Table 04-2 at boundary `b`. A RESUME that meets a unit still on its ramp to FAULT waits until FAULT
is reached, the one state from which the table has it leave (DEDUCED, log entry 27). A UNIT_ENABLE given up while it held a
unit that came from PARK returns that unit to PARK, for which the spec gives no row (DESIGN CHOICE, log entry 27). -/
def applyTrans (s : Block) (u b : Nat) (t : Trans) : Block :=
  let x := unit s u
  let o := ostate s u
  match t with
  | .fault v =>
    let s := overtaken s u
    if o = 0 || o = 4 then s
    else
      let s := setUnit s u { unit s u with viaSafe := v, enabled := false, paused := none }
      startRamp (setF s (strF u F.STR_STEVT_GRANT_WAIT) 0) u b .fault
  | .enable =>
    if o = 4 || toFault s u || modeOf s = 4 || (getF s F.PATROL_RGN_STATE_SAFE).testBit (regionOf u) then s
    else
      let s := overtakenByEnable s u
      let s := if o = 0 then closeAtRest (setUnit s u { unit s u with afterDis := false }) u b else s
      let s := setUnit s u { unit s u with enabled := true, paused := none, afterDis := false }
      startRamp (setF s (strF u F.STR_STEVT_GRANT_WAIT) 0) u b .play
  | .disable =>
    if o = 4 then
      if x.viaSafe then s
      else
        let s := clearDis s u
        startRamp (setUnit s u { x with disabling := true, viaSafe := false }) u b .rest
    else if o = 2 || o = 3 || o = 5 then
      let s := setUnit s u { x with disabling := true, enabled := false, paused := none }
      startRamp (setF s (strF u F.STR_STEVT_GRANT_WAIT) 0) u b .rest
    else s
  | .resume =>
    if o = 4 && x.viaSafe then startRamp (setUnit s u { x with viaSafe := false }) u b .rest
    else if toFault s u && x.viaSafe then setUnit s u { x with trans := x.trans ++ [(b + 1, .resume)] }
    else s
  | .newRest =>
    let nv := fun (s : Block) => setUnit s u { unit s u with nvSlope := true }
    if o = 1 then startRamp s u b .rest
    else if o = 5 && x.goal == .park then nv (startRamp s u b .rest)
    else if o = 0 && !x.afterDis then
      nv (startRamp (closeSwitch s u b 0 (getF s (strF u F.STR_SCFG_RRANGE))) u b .rest)
    else s
  | .newFault =>
    if o = 4 then startRamp s u b .fault
    else if o = 0 && !x.afterDis then closeToFault s u b true
    else s
  | .park => if o = 1 then startRamp s u b .park else s
  | .pause =>
    let s := if o = 0 then closeAtRest s u b else s
    let s := setUnit s u { unit s u with paused := some (o, getF s (uF u F.P_STATE_SP_TARGET)) }
    setOstate (setF s (strF u F.STR_STEVT_GRANT_WAIT) 1) u 3 0
  | .unpause =>
    let s := setUnit (setF s (strF u F.STR_STEVT_GRANT_WAIT) 0) u { x with paused := none }
    match x.paused with
    | some (1, _) => startRamp s u b .rest
    | some (o, sp) => setOstate s u o sp
    | none => s

/-- A fault transition. -/
def Trans.isFault : Trans → Bool
  | .fault _ => true
  | _ => false

/-- The transitions due at boundary `b`: a FAULT among them prevails over the others (Table 04-5), also over the
closing of a parked unit's switch, which then closes toward FAULT; a RESUME that meets it waits for FAULT. During a switch
all wait (R93). -/
def applyDue (s : Block) (u b : Nat) : Block :=
  if switching s u then s
  else
    let x := unit s u
    let due := x.trans.filter (fun p => decide (p.1 ≤ b))
    let s := setUnit s u { x with trans := x.trans.filter (fun p => decide (b < p.1)) }
    let closes := ostate s u == 0 && !x.afterDis && due.any (fun p => p.2 == .newRest || p.2 == .newFault)
    match due.find? (fun p => p.2.isFault) with
    | some (_, .fault v) =>
      if closes then closeToFault s u b v
      else
        let s := applyTrans s u b (.fault v)
        let s := if due.any (fun p => p.2 == .resume) then applyTrans s u b .resume else s
        if ostate s u = 4 && due.any (fun p => p.2 == .newFault) then applyTrans s u b .newFault else s
    | some p => applyTrans s u b p.2
    | none => forEach due s (fun s p => applyTrans s u b p.2)

/-- The shutdown of unit `u` is completed at this frame (R88). -/
def shutdownDone (s : Block) (u : Nat) : Block :=
  let s := setUnit s u { unit s u with disabling := false, afterDis := true, sd := 1 }
  let s := raise s (strF u F.STR_STEVT_SD_DONE)
  let r := getF s (strF u F.STR_SCFG_RRANGE)
  if getF s (uF u F.P_RANGE_ACT) = r then releaseGrant s u r else s

/-- The ramp of unit `u` has reached its goal. -/
def rampEnd (s : Block) (u : Nat) (live : Bool) : Block :=
  let x := unit s u
  match x.goal with
  | .rest =>
    let s := setOstate s u 1 0
    if x.disabling && getF s (strF u F.STR_SCFG_PARK_ON_DIS) = 0 then shutdownDone s u else s
  | .fault => setOstate s u 4 0
  | .play => setOstate s u (if live then 2 else 3) 0
  | .value _ _ => setOstate s u 3 0
  | .park => setOstate (setUnit s u { x with afterDis := false }) u 0 0

/-- The slope of the ramp in course at the frame of boundary `b`: the enable slope toward the playback value, the NVM slope
as at start-up and before SLEEP, else SLEW (R84, R335, R374). -/
def rampSlope (s : Block) (u b : Nat) : Nat :=
  match (unit s u).rc, (unit s u).goal with
  | none, .play => (limsAt s u b).2.1
  | none, .park => nvSlopeOf s u
  | none, .rest => if (unit s u).nvSlope then nvSlopeOf s u else (limsAt s u b).1
  | _, _ => (limsAt s u b).1

/-- A switch whose frame p + F + 1 is the frame at boundary `b`, or an earlier one, is over: the ramp to the goal begins
from the range-change value in the new range (R91, R93); a held value counts in that range from now on. -/
def endSwitch (s : Block) (u b : Nat) : Block :=
  let x := unit s u
  match x.rc with
  | some c =>
    let t := unitT s u
    if c.p = 0 || b ≤ c.p + c.f * t then s
    else
      let v := if x.rng = c.tgt then x.x else c.valNew
      let g := match x.goal with
        | .value w r => if zeroChange u r c.tgt then .value 0 c.tgt else .value w r
        | g => g
      let s := setUnit s u { x with rc := none, x := v, rng := c.tgt, r := v, hist := [], start := v, goal := g }
      let s := if x.actQ.isEmpty then setF s (strF u F.STR_STEVT_RCHG) 0 else s
      setOstate s u 5 (goalCode g)
  | none => s

/-- The ramp or switch of unit `u` advances by the frame at boundary `b` (R84, R91). `pv` is the playback
value, `live` whether the group delivers this frame. -/
def rampStep (s : Block) (u b : Nat) (pv : Int) (live : Bool) : Block :=
  let t := unitT s u
  let x := unit s u
  match x.rc with
  | none =>
    let r := rampFrame s u (rampSlope s u b) (limsAt s u b).2.2 t (goalValue s u x.goal pv)
    let s := setUnit s u r.1
    if r.2 then rampEnd s u live else s
  | some c =>
    if c.p = 0 then
      if c.reached then s
      else
        let r := rampFrame s u (limsAt s u b).1 (limsAt s u b).2.2 t c.valOld
        setUnit s u { r.1 with rc := some { c with reached := r.2 } }
    else if b < c.p + c.f * t then setUnit s u { x with x := c.valOld }
    else setUnit s u { x with x := c.valNew, rng := c.tgt }

/-- The units that change range with unit `u` under one strobe, itself among them (R92). -/
def changeMates (s : Block) (u : Nat) (c : RangeChange) : List (Nat × RangeChange) :=
  match c.co with
  | none => [(u, c)]
  | some k => (List.range 64).filterMap (fun v => match (unit s v).rc with
    | some d => if d.co = some k && d.p = 0 then some (v, d) else none
    | none => none)

/-- Unit `u` begins the switch with p the frame at `b` and F `f`: the pin-time changes that follow (R91); 16 opens the
series switch, 17 closes it, 32 + r has RANGE.ACT show the new range r. -/
def switchFrom (b f : Nat) (s : Block) (p : Nat × RangeChange) : Block :=
  let u := p.1
  let x := unit s u
  let t := unitT s u
  let pin := b + latFrames s u * t
  let q := (if p.2.mode then [(pin, 16), (pin + 200000, 17)] else []) ++ [(pin + f * t, 32 + p.2.tgt)]
  setUnit s u { x with
    rc := some { p.2 with p := b, f := f }, actQ := x.actQ ++ q, swFrom := x.swFrom ++ [pin + 1] }

/-- The units that began a range change under one strobe begin the switch together once all have reached
their value (R92): their common p and F. -/
def beginSwitch (s : Block) (b : Nat) : Block :=
  forEach (List.range 64) s (fun s u => match (unit s u).rc with
    | none => s
    | some c =>
      if c.p != 0 || !c.reached then s
      else
        let co := changeMates s u c
        if co.all (fun p => p.2.reached) then
          forEach co s (switchFrom b (co.foldl (fun n p => max n p.2.f) 1))
        else s)

/-- The value and state of unit `u` for the frame at boundary `b` (R37, R38, Table 04-1). -/
def unitValue (s : Block) (u b : Nat) (pv : Int) (live : Bool) : Block :=
  let x := unit s u
  match ostate s u with
  | 0 =>
    let v := if x.recOk then signed 28 (getF s (strF u F.STR_RESTV_VAL)) else 0
    let r := getF s (strF u F.STR_SCFG_RRANGE)
    let s := setUnit s u { x with x := v, rng := r }
    if x.rng = r then s else actAt s u b r
  | 1 =>
    if x.disabling then shutdownDone (setOstate s u 0 0) u
    else setUnit s u { x with x := signed 28 (getF s (strF u F.STR_RESTV_VAL)) }
  | 2 => if live then setUnit s u { x with x := pv } else setOstate s u 3 0
  | 3 =>
    if live && x.enabled && !flag s (strF u F.STR_STEVT_GRANT_WAIT) then
      setOstate (setUnit s u { x with x := pv }) u 2 0
    else s
  | 4 => s
  | _ => if flag s (strF u F.STR_STEVT_GRANT_WAIT) then s else rampStep s u b pv live

/-- A new RANGE.SEL in force begins a range change in ACTIVE and HOLD (R90); from HOLD the target is the held value in
the new range, clipped, or zero. A ramp in course follows it by `seekRange`. A unit that waits for a grant holds its
value and changes no range meanwhile (R87). -/
def selChanged (s : Block) (u b : Nat) (live : Bool) : Block :=
  let x := unit s u
  if selRange s u = x.rng || flag s (strF u F.STR_STEVT_GRANT_WAIT) then s
  else
    match ostate s u with
    | 2 => startRamp s u b .play
    | 3 => startRamp s u b (if live then .play else .value x.x x.rng)
    | _ => s

/-- A held value as the target turns to playback when the group delivers a frame before the ramp ends (R90). -/
def chase (s : Block) (u : Nat) (live : Bool) : Block :=
  let x := unit s u
  match x.goal with
  | .value _ _ =>
    if live && x.enabled && ostate s u = 5 then
      let s := setUnit s u { x with goal := .play }
      if x.rc.isNone then setOstate s u 5 2 else s
    else s
  | _ => s

end Sys2Proof.Machine
end

