-- ==== Sys2Proof/Machine/Acquisition.lean ====
section
/-! DEFINITION. Acquisition units: sample grid, words, settling (R179 to R185, R337), and reductions (R194,
R195). -/

namespace Sys2Proof.Machine

/-- Acquisition unit `n` beyond its registers. -/
def aunit (s : Block) (n : Nat) : AUnit := Tbl.get (fun _ => ({} : AUnit)) s.acq.units n

/-- Acquisition unit `n` changed. -/
def setAunit (s : Block) (n : Nat) (x : AUnit) : Block :=
  { s with acq := { s.acq with units := Tbl.set (fun _ => ({} : AUnit)) s.acq.units n x } }

/-- The sample period P of unit `n` in ns (R182). -/
def samplePeriod (s : Block) (n : Nat) : Nat := 500 * 2 ^ getF s (aF n F.A_CTRL_ODR)

/-- D_A of unit `n` in ns (R183). -/
def sampleDelay (s : Block) (n : Nat) : Nat :=
  (if getF s (aF n F.A_CTRL_FILT) = 0 then 32 else 2) * samplePeriod s n + 2000

/-- Sample times the filter of unit `n` takes to settle (R185). -/
def settleWords (s : Block) (n : Nat) : Nat := if getF s (aF n F.A_CTRL_FILT) = 0 then 64 else 4

/-- CTRL of unit `n` in force changed from `old` (R185): DELAY follows, and after EN goes to 1 or a change of
RANGE, ODR or FILT the filter settles; at a new data rate the tick indexes begin anew. -/
def aCtrlChanged (s : Block) (n old : Nat) : Block :=
  let new := (getW s (unitBase (64 + n) + R.A_CTRL)).toNat
  let s := setF s (aF n F.A_DELAY_NS) (sampleDelay s n)
  let part := fun (w : Nat) => w &&& 0xF3C
  let odr := fun (w : Nat) => natBits w 11 8
  let x := aunit s n
  let s := if odr old = odr new then s else setAunit s n { x with next := 0, hist := [] }
  if new.testBit 0 && (!old.testBit 0 || part old != part new) then
    setF (setAunit s n { aunit s n with settle := settleWords s n }) (aF n F.A_STATUS_SETTLE) 1
  else s

/-- A sample word (R184): value, OVR, MISS. -/
def sampleWord (v : Int) (ovr miss : Bool) : Nat := unsigned 24 v * 256 + b2n ovr * 128 + b2n miss * 32

/-- The value, OVR and MISS of a word. -/
def wordVal (w : Nat) : Int := signed 24 (w / 256)
def wordOvr (w : Nat) : Bool := w.testBit 7
def wordMiss (w : Nat) : Bool := w.testBit 5

/-- The word of tick `k` of unit `n`; a word that never came counts as missing. -/
def wordAt (s : Block) (n k : Nat) : Nat :=
  match (aunit s n).hist.find? (fun p => p.1 == k) with
  | some p => p.2
  | none => sampleWord 0 false true

/-! ## Reductions -/

/-- Capture `t` runs. -/
def capRuns (s : Block) (t : Nat) : Bool := getF s (tF t F.TRACK_STATE_ESTATE) == 2

/-- Window length N of reduction slot `r` of unit `n`. -/
def redLen (s : Block) (n r : Nat) : Nat := getF s ((aF n F.A_RED0_NM1).at (4 * r)) + 1

/-- TYPE of the slot. -/
def redType (s : Block) (n r : Nat) : Nat := getF s ((aF n F.A_RED0_TYPE).at (4 * r))

/-- A word taken into its window (R194): missing words are left out. -/
def redAdd (ty : Nat) (th : Int) (x : RedAcc) (w : Nat) : RedAcc :=
  if wordMiss w then { x with miss := true }
  else
    let v := wordVal w
    let x := { x with ovr := x.ovr || wordOvr w, n := x.n + 1 }
    match ty with
    | 0 => { x with a := x.a + v }
    | 1 => if x.n = 1 then { x with a := v, b := v } else { x with a := min x.a v, b := max x.b v }
    | 2 => { x with a := x.a + v * v }
    | _ => if th < v then { x with a := x.a + 1 } else x

/-- The eight words of a reduction record (Table 09-5). -/
def redWords (s : Block) (x : RedAcc) (part : Bool) : List Word :=
  let ty := redType s x.unit x.slot
  let syst := x.win * redLen s x.unit x.slot * samplePeriod s x.unit
  let a := if ty = 2 then x.a.toNat % 2 ^ 64 else unsigned 64 x.a
  let b := if ty = 2 then x.a.toNat / 2 ^ 64 else unsigned 64 x.b
  [Word.ofNat syst, Word.ofNat (syst >>> 32),
   Word.ofNat (x.unit + x.slot * 2 ^ 5 + ty * 2 ^ 7 + b2n part * 2 ^ 16 + b2n x.ovr * 2 ^ 17 +
     b2n x.miss * 2 ^ 18),
   Word.ofNat x.n, Word.ofNat a, Word.ofNat (a >>> 32), Word.ofNat b, Word.ofNat (b >>> 32)]

/-- A record written to REDSEG of capture `t`, circularly (R195). -/
def emitRed (s : Block) (t : Nat) (x : RedAcc) (part : Bool) : Block :=
  if dramBad s then s else
  let g := seg s (cap s t).cfg.redseg
  let o := getF s (tF t F.TRACK_RED_WPTR_OFS)
  let s := putSegBytes (noteServed s 4) g o ((redWords s x part).flatMap wordBytes)
  if segSize g ≤ o + 32 then
    let s := setF s (tF t F.TRACK_RED_WPTR_OFS) 0
    raise (incF s (tF t F.TRACK_RED_WRAPS_COUNT)) (tF t F.TRACK_STATUS_RED_WRAP)
  else setF s (tF t F.TRACK_RED_WPTR_OFS) (o + 32)

/-- Word `w` of tick `k` of member `n` of capture `t` reaches reduction slot `r`. A window whose last tick a forward step
skipped is recorded when the next word comes (R249); only the start cuts a first window (R195). -/
def redFeed (s : Block) (t n k w r : Nat) : Block :=
  if !flag s ((aF n F.A_RED0_EN).at (4 * r)) then s
  else
    let len := redLen s n r
    let win := k / len
    let c := cap s t
    let mine := fun (x : RedAcc) => x.unit == n && x.slot == r
    let fresh : RedAcc := ⟨n, r, win, decide (win * len < c.first), false, false, 0, 0, 0⟩
    let old := c.reds.find? mine
    let rest := c.reds.filter (fun y => !mine y)
    let s := setCap s t { c with reds := rest }
    let s := match old with
      | some x => if x.win = win then s else emitRed s t x x.part
      | none => s
    let cur := match old with
      | some x => if x.win = win then x else fresh
      | none => fresh
    let x := redAdd (redType s n r) (signed 24 (getF s (aF n F.A_THRESH_TH))) cur w
    if k % len = len - 1 then emitRed s t x x.part
    else setCap s t { cap s t with reds := rest ++ [x] }

/-- Windows still open at the end of the capture are recorded PARTIAL, by unit and slot. -/
def redCut (s : Block) (t : Nat) : Block :=
  let c := cap s t
  let s := (List.range 128).foldl (fun s i =>
    match c.reds.find? (fun x => x.unit == i / 4 && x.slot == i % 4) with
    | some x => emitRed s t x true
    | none => s) s
  setCap s t { cap s t with reds := [] }

/-! ## A word arrives -/

/-- From the first sample instant `t` after its commit on, an A unit's words are corrected by the bank committed (R337,
R342). -/
def swapABank (s : Block) (n t : Nat) : Block :=
  match s.cal.aswap.find? (fun p => p.1 == n && decide (p.2 < t)) with
  | some p =>
    let b := 1 - Tbl.get (fun _ => 0) s.cal.abank n
    { s with cal := { s.cal with aswap := s.cal.aswap.erase p,
                                 abank := Tbl.set (fun _ => 0) s.cal.abank n b } }
  | none => s

/-- The corrected value of the converted value `x`, LSB 2^-27 of the range, as a 24-bit value before
saturation (R40, R337). -/
def correctSample (s : Block) (n : Nat) (x : Int) : Int :=
  let base := recordBase (64 + n) (Tbl.get (fun _ => 0) s.cal.abank n) (getF s (aF n F.A_CTRL_RANGE))
  let dt := if flag s (aF n F.A_CTRL_TEMPCO) || calNamed s (64 + n) then (unit s (64 + n)).temp - recordHalf s base 0x0C else 0
  divEven (correctRaw s base dt x) 128

/-- The largest value of a word. -/
def maxValue : Int := 8388607

/-- Word `w` of tick `k` arrives: LAST, LTICK, the look-back of the engines, the reductions of the capture the
unit belongs to. -/
def takeWord (s : Block) (n k w : Nat) : Block :=
  let s := putM s (unitBase (64 + n) + R.A_LAST) 0xFFFFFFFF w
  let s := setF s (aF n F.A_LTICK_TICK) k
  let x := aunit s n
  let s := setAunit s n { x with next := k + 1, hist := (k, w) :: x.hist.take 511 }
  let t := getF s (aF n F.A_STATUS_CAP)
  let c := cap s t
  if flag s (aF n F.A_STATUS_IN_CAP) && c.cfg.redEn && capRuns s t && decide (c.first ≤ k) then
    forEach (List.range 4) s (fun s r => redFeed s t n k w r)
  else s

/-- The tick whose word comes now: after a forward step the words of ticks before it still come (R249). -/
def sampleTick (s : Block) (d p : Nat) : Nat :=
  let x := s.sysTime - d
  (if x < s.clock.skipTo then x - (s.clock.skipTo - s.clock.skipFrom) else x) / p

/-- The instant of tick `k` lies in SYSTIME that a forward step skipped: it has no word (R249). -/
def tickSkipped (s : Block) (k p : Nat) : Bool :=
  decide (s.clock.skipFrom ≤ k * p) && decide (k * p < s.clock.skipTo)

/-- ACQ_SAMPLE (R182): the word of the latest tick whose delay D_A has passed arrives. `x` is the converted value
in 2^-27 of the range, `cmon` the common mode in mV. A unit that does not convert, or whose word has come,
delivers none. -/
def effAcqSample (u : Nat) (x cmon : Int) (s : Block) : Out :=
  withIdx 32 u <|
    let p := samplePeriod s u
    let d := sampleDelay s u
    let k := sampleTick s d p
    let y := aunit s u
    if !flag s (aF u F.A_CTRL_EN) || modeOf s = 0 || modeOf s = 5 || decide (s.sysTime < d) ||
        decide (k < y.next) || tickSkipped s k p || onCalPath s (64 + u) then .next s
    else
      let s := swapABank s u (k * p)
      let s := if y.next = 0 || decide ((y.next - 1) * p / 1000000 < k * p / 1000000) then
          setF s (aF u F.A_CMON_VCM) (unsigned 16 cmon) else s
      .next <|
        if (getF s F.PATROL_RGN_STATE_SAFE).testBit (regionOf (64 + u)) then
          takeWord (raise s (aF u F.A_STATUS_MISS)) u k (sampleWord 0 false true)
        else if 0 < y.settle then
          let s := setAunit s u { y with settle := y.settle - 1 }
          let s := setB s (aF u F.A_STATUS_SETTLE) (decide (1 < y.settle))
          takeWord s u k (sampleWord 0 false true)
        else
          let v := correctSample s u x
          let c := clampI (-maxValue) maxValue v
          let ovr := c != v
          let s := if ovr then raise (incF s (aF u F.A_OVCOUNT_COUNT)) (aF u F.A_STATUS_OVR) else s
          takeWord s u k (sampleWord c ovr false)

/-! ## The meanings -/

/-- ACQ_SAMPLE (R182), done to the block; the queue stays. -/
def execAcqSample (u : Nat) (x cmon : Int) (s : State) : Host.Outcome State Fault Refusal :=
  onBlock s (effAcqSample u x cmon)

end Sys2Proof.Machine
end

