-- ==== Sys2Proof/Machine/UnitJobs.lean ====
section
/-! DEFINITION. The waits of the unit commands and of the admission and mode commands: what a waiting
command's condition is and how it ends (R87, R88, R292, R301, R365). -/

namespace Sys2Proof.Machine

/-- Requests of a command still queued. -/
def queuedFor (s : Block) (j : Job) : List PacReq :=
  s.sys.queue.filter (fun r => r.id == j.id)

/-- The first f_M edge's commit strobe (R295): words staged for `u`, applied at its first boundary at or
after e + 4,000 ns; an acquisition unit has no frames and takes them at e. -/
def commitStrobe (s : Block) (u : Nat) (words : List (Nat × Nat × Nat)) : Block :=
  let due := if 64 ≤ u && u < 96 then nextEdge s else nextEdge s + 4000
  { s with strobes := s.strobes ++ [⟨u, due, none, words, 0⟩] }

/-- Every unit a command names. -/
def namedUnits (j : Job) : List Nat := bitList (pw64 j.p 1) 64

/-- A unit has no strobe, no range change and no pin-time change still to come. -/
def rangeSettled (s : Block) (u : Nat) : Bool :=
  !(s.strobes.any (fun b => b.tgt == u && b.ug.isNone)) && (unit s u).rc.isNone &&
    (unit s u).actQ.isEmpty

/-- A waiting UNIT_ENABLE (R87): head 0 while a grant is awaited, 1 once the enable is scheduled. Where a SAFE takes one of
its units at the enable's boundary, the command ends STATE (Table 04-5); what becomes of its other units the spec does not
say: they ramp on, and every grant that the command obtained is released (DESIGN CHOICE, log entry 27). -/
def settleEnable (s : Block) (j : Job) : Block :=
  let hd := j.todo.headD 0
  if 0x1000 ≤ hd then
    let s := endJob s j (hd - 0x1000) j.detail
    let s := forEach (namedUnits j) s (fun s u => schedUnit s u (s.sysTime + 1) .unpause)
    dropGrants s j
  else if hd = 0 then
    if (queuedFor s j).isEmpty then
      let l := s.cmd.jobs.map (fun k => if k = j then { k with todo := 1 :: k.todo.drop 1 } else k)
      let s := { s with cmd := { s.cmd with jobs := l } }
      forEach (namedUnits j) s (fun s u => schedUnit s u (s.sysTime + 1) .enable)
    else s
  else if (namedUnits j).all (fun u => !((unit s u).trans.any (fun p => decide (p.2 = .enable)))) then
    match (namedUnits j).find? (fun u => (unit s u).goal == .fault || ostate s u == 0) with
    | some u => dropGrants (endJob s j Sts.state u) j
    | none => endJob s j Sts.ok 0
  else s

/-- A waiting UNIT_RANGE: the strobe once the grants are held, the end once every unit shows its range. -/
def settleRange (s : Block) (j : Job) : Block :=
  let hd := j.todo.headD 0
  if 0x1000 ≤ hd then dropGrants (endJob s j (hd - 0x1000) j.detail) j
  else if hd = 0 then
    if (queuedFor s j).isEmpty then
      let l := s.cmd.jobs.map (fun k => if k = j then { k with todo := 1 :: k.todo.drop 1 } else k)
      let s := { s with cmd := { s.cmd with jobs := l } }
      let sel := pb j.p 3 3 0
      forEach (namedUnits j) s (fun s u =>
        commitStrobe s u [(unitBase u + R.P_RANGE, sel, 0xF)])
    else s
  else if (namedUnits j).all (rangeSettled s) then endJob s j Sts.ok 0
  else s

/-- A waiting UNIT_DISABLE ends when every unit it names has completed or been overtaken (R88). -/
def settleDisable (s : Block) (j : Job) : Block :=
  let us := namedUnits j
  if us.all (fun u => decide ((unit s u).sd < 3)) then
    let n := us.countP (fun u => (unit s u).sd == 2)
    if n = 0 then endJob s j Sts.ok 0 else endJob s { j with result := n } Sts.partially 0
  else s

/-- A UNIT_CONFIG completes when its commit strobe has applied (Table 13-2). -/
def settleConfig (s : Block) (j : Job) : Block :=
  let u := pb j.p 1 6 0
  if s.strobes.any (fun b => b.tgt == u && b.ug.isNone) then s else endJob s j Sts.ok 0

/-- A waiting PAC_RESERVE ends when its request is granted or refused (R365). -/
def settleReserve (s : Block) (j : Job) : Block :=
  let hd := j.todo.headD 0
  if 0x1000 ≤ hd then endJob s j (hd - 0x1000) j.detail
  else if (queuedFor s j).isEmpty then endJob s j Sts.ok 0
  else s

/-- A command that waits for regions and the package to leave SAFE ends once every unit it freed has begun
its ramp (R359). -/
def settleResume (s : Block) (j : Job) : Block :=
  if (List.range 64).all (fun u => !((unit s u).trans.any (fun p => decide (p.2 = .resume)))) then
    endJob s j Sts.ok 0
  else s

/-- A unit has still to reach PARK before SLEEP (R374). -/
def parking (s : Block) (u : Nat) : Bool :=
  (unit s u).trans.any (fun p => decide (p.2 = .park)) || (ostate s u == 5 && (unit s u).goal == .park)

/-- A MODE_SET to SLEEP completes once the units that were in REST are in PARK; power goes 10 ms later. -/
def settleModeSet (s : Block) (j : Job) : Block :=
  if s.boot.sleeping && !(List.range 64).any (parking s) then
    let s := endJob s j Sts.ok 0
    { s with boot := { s.boot with sleeping := false, offAt := s.now + 10000001 } }
  else s

/-- Both sample loops have declared lock. -/
def loopsLocked (s : Block) : Bool :=
  getF s (F.CLOCK_L0_LSTAT_LSTATE.at 0x20) == 2 && getF s (F.CLOCK_L0_LSTAT_LSTATE.at 0x40) == 2

/-- A waiting PLL_CONFIG ends when both loops have declared lock, or after 100 ms (R240). -/
def settlePll (s : Block) (j : Job) : Block :=
  let c := s.clock
  let late := decide (c.lockBy ≤ s.now + 1)
  if loopsLocked s || late then
    endJob { s with clock := { c with lockBy := 0 } } j (if loopsLocked s then Sts.ok else Sts.pllUnlocked) 0
  else s

/-- A STEP_AT_GATE whose group has stopped or ended before its gate wait leaves the relock pending (R250, R254). -/
def relockGate (s : Block) : Block :=
  let c := s.clock
  let st := getF s (qF c.grp F.SEQ_STATE_SSTATE)
  if c.policy = some 1 && !c.closing && (st == 0 || decide (4 ≤ st)) then
    setF { s with clock := { c with policy := some 3 } } F.CLOCK_STATE_RELOCK_PEND 1
  else s

/-- A waiting PLL_RELOCK ends when lock is declared; ABORTED where the relock is pending again (R250). -/
def settleRelock (s : Block) (j : Job) : Block :=
  if s.clock.policy.isNone && loopsLocked s then endJob s j Sts.ok 0
  else if s.clock.policy = some 3 then endJob s j Sts.aborted 0
  else s

/-- A waiting GYDEN_CONFIG ends when the link is UP, or when a joining node has no lock within 100 ms (R225). -/
def settleGyden (s : Block) (j : Job) : Block :=
  let g := s.gyden
  if getF s F.GYDEN_STATE_LINK = 2 then endJob { s with gyden := { g with joinBy := 0 } } j Sts.ok 0
  else if g.joinBy != 0 && decide (g.joinBy ≤ s.now + 1) then
    endJob { s with gyden := { g with joinBy := 0 } } j Sts.pllUnlocked 0
  else s

/-- A waiting GYDEN_MEASURE ends after its round trips (R230); under ALL its steps are the nodes measured. -/
def settleMeasure (s : Block) (j : Job) : Block :=
  if s.gyden.trips = 0 then endJob s { j with steps := j.todo.headD 1 } Sts.ok 0 else s

end Sys2Proof.Machine
end

