-- ==== Sys2Proof/Machine/Nvm.lean ====
section
/-! DEFINITION. The NOR (R397 to R401): its layout, records in two copies, operations one at a time, the
audit log (R345), and what a committed record does (R82, R111, R171). -/

namespace Sys2Proof.Machine

/-! ## Bytes -/

/-- Address `a` lies in an assigned area of Table 17-6. -/
def nvmAssigned (a : Nat) : Bool :=
  decide (a < 0x2000) || (decide (0x100000 ≤ a) && decide (a < 0x302000)) ||
    (decide (0x310000 ≤ a) && decide (a < 0x318000)) ||
    (decide (0x320000 ≤ a) && decide (a < 0x324000)) ||
    (decide (0x400000 ≤ a) && decide (a < 0x530000)) ||
    (decide (0x600000 ≤ a) && decide (a < 0x700000)) ||
    (decide (0x800000 ≤ a) && decide (a < 0xC00000))

/-- The terms of sin x from `t` = x^(2n + 1) / (2n + 1)! on, the next one subtracted and so on, with `f` terms and
fractions of 2^-96; `x2` is x². -/
def sineTail (x2 : Nat) : Nat → Nat → Nat → Nat
  | _, _, 0 => 0
  | t, n, f + 1 => t - sineTail x2 (t * x2 / 2 ^ 96 / ((2 * n + 2) * (2 * n + 3))) (n + 1) f

/-- round((2^23 - 1) sin(2πk / 16,384)) in the first quadrant, `k` up to 4,096; no product is near a tie. -/
def sineQuarter (k : Nat) : Nat :=
  let x := k * 248902613312231085230521944622 / 8192
  ((2 ^ 23 - 1) * sineTail (x * x / 2 ^ 96) x 0 16 + 2 ^ 95) / 2 ^ 96

/-- Entry `k` of the factory sine table (R155). -/
def factorySine (k : Nat) : Int :=
  let v := sineQuarter (if k / 4096 % 2 = 0 then k % 4096 else 4096 - k % 4096)
  if k / 8192 % 2 = 0 then (v : Int) else -(v : Int)

/-- Byte `a` of the NOR within the factory sine table (Table 17-6, which no command writes). -/
def sineByte (a : Nat) : Byte := BitVec.ofNat 8 (unsigned 32 (factorySine ((a - 0x520000) / 4)) / 256 ^ (a % 4))

/-- The byte at `a`: as programmed, the factory sine table in its area, erased bytes of the other assigned areas 0xFF, an
unassigned address 0 (R397). -/
def nvmByte (s : Block) (a : Nat) : Byte :=
  if !nvmAssigned a then 0
  else if decide (0x520000 ≤ a) && decide (a < 0x530000) then sineByte a
  else Tbl.get (fun _ => (255 : Byte)) s.nvm.bytes a

/-- `n` bytes from `a`. -/
def nvmBytes (s : Block) (a n : Nat) : List Byte := (List.range n).map (fun i => nvmByte s (a + i))

/-- The word at `a`. -/
def nvmWord (s : Block) (a : Nat) : Nat := bytesNat (nvmBytes s a 4)

/-- A number in `n` bytes, least significant first. -/
def natBytes (v : Nat) : Nat → List Byte
  | 0 => []
  | n + 1 => BitVec.ofNat 8 v :: natBytes (v / 256) n

/-- `new` written over `old` from position `i`. -/
def overlay (old : List Byte) (i : Nat) (new : List Byte) : List Byte :=
  old.take i ++ new ++ old.drop (i + new.length)

/-! ## Records in two copies (R398) -/

/-- Base and copy size: boot record, device record, record table, retired-page map. -/
def copyArea (kind : Nat) : Nat × Nat :=
  match kind with
  | 5 => (0, 0x1000)
  | 6 => (0x300000, 0x1000)
  | 7 => (0x320000, 0x2000)
  | _ => (0x310000, 0x4000)

/-- Some byte from `a` on, of `n`, is not erased. -/
def nvmUsed (s : Block) (a n : Nat) : Bool := s.nvm.bytes.any (fun x => decide (a ≤ x.1) && decide (x.1 < a + n))

/-- A copy's CRC-32 in word 1 matches its word 0 and the bytes from 8 up; that of an erased copy does not. -/
def copyValid (s : Block) (base size : Nat) : Bool :=
  nvmUsed s base size && nvmWord s (base + 4) == crc32 (nvmBytes s base 4 ++ nvmBytes s (base + 8) (size - 8))

/-- `a` is newer than `b` in modulo-2^32 serial-number order. -/
def newer (a b : Nat) : Bool := decide ((a + 2 ^ 32 - b) % 2 ^ 32 < 2 ^ 31)

/-- The copy in force: with a matching CRC and the greater SEQ. -/
def copyInForce (s : Block) (kind : Nat) : Option Nat :=
  let a := copyArea kind
  let b := a.1 + a.2
  match copyValid s a.1 a.2, copyValid s b a.2 with
  | true, true => if newer (nvmWord s a.1) (nvmWord s b) then some a.1 else some b
  | true, false => some a.1
  | false, true => some b
  | false, false => none

/-- Programs of 256-byte pages from `a`. -/
def pagePrograms (a : Nat) (l : List Byte) : List NvmOp :=
  (List.range ((l.length + 255) / 256)).map (fun i => ⟨2, a + 256 * i, (l.drop (256 * i)).take 256⟩)

/-- The operations that rewrite the other copy with `change` made to its content, with SEQ + 1. -/
def rewriteOps (s : Block) (kind : Nat) (change : List Byte → List Byte) : List NvmOp :=
  let a := copyArea kind
  let cur := copyInForce s kind
  let old := match cur with
    | some b => nvmBytes s b a.2
    | none => List.replicate a.2 255
  let sq := match cur with
    | some b => nvmWord s b + 1
    | none => 1
  let dst := if cur = some a.1 then a.1 + a.2 else a.1
  let body := (change old).drop 8
  let hd := natBytes sq 4
  let content := hd ++ natBytes (crc32 (hd ++ body)) 4 ++ body
  (List.range (a.2 / 4096)).map (fun i => ⟨3, dst + 4096 * i, []⟩) ++ pagePrograms dst content

/-! ## The records of units and lane clusters -/

/-- Where unit `u`'s record lies in a record table. -/
def unitRecOff (u : Nat) : Nat := 0x40 + u * 0x40

/-- Where lane cluster `c`'s record lies. -/
def laneRecOff (c : Nat) : Nat := 0x1040 + c * 0x40

/-- A 32-byte unit record passes R80. -/
def unitRecOk (u : Nat) (l : List Byte) : Bool :=
  let w := fun i => bytesNat ((l.drop (4 * i)).take 4)
  let inRange := fun (v : Nat) => let x := signed 28 v; decide (-maxCode ≤ x) && decide (x ≤ maxCode)
  w 7 == crc32 (l.take 28) && rangeOk u (natBits (w 0) 3 0) && rangeOk u (natBits (w 0) 7 4) &&
    inRange (w 1) && inRange (w 2) && natBits (w 4) 11 0 != 0 &&
    (decide (u < 48) || natBits (w 5) 11 0 != 0)

/-- A 36-byte lane record passes R171. -/
def laneRecOk (c : Nat) (l : List Byte) : Bool :=
  let cfg := bytesNat (l.take 4)
  bytesNat ((l.drop 32).take 4) == crc32 (l.take 32) &&
    (c == 7 || (List.range 8).all (fun j => natBits cfg (4 * j + 1) (4 * j) != 3))

/-- The record of unit `u` in force; none where no table copy is valid. -/
def unitRec (s : Block) (u : Nat) : Option (List Byte) :=
  (copyInForce s 1).map (fun b => nvmBytes s (b + unitRecOff u) 32)

/-- The record of lane cluster `c` in force. -/
def laneRec (s : Block) (c : Nat) : Option (List Byte) :=
  (copyInForce s 1).map (fun b => nvmBytes s (b + laneRecOff c) 36)

/-- Word `i` of a record. -/
def recWord (l : List Byte) (i : Nat) : Nat := bytesNat ((l.drop (4 * i)).take 4)

/-- The bits of word `i` of unit `u`'s record that its mirror shows (Tables 04-6 to 04-11). -/
def recMask (u i : Nat) : Nat :=
  match i with
  | 0 => 0x3FF
  | 1 | 2 | 3 => 0xFFFFFFF
  | 5 => if u < 48 then 0 else 0xFFFF
  | 6 => 0
  | _ => 0xFFFFFFFF

/-- A unit record in force is mirrored in the state record (R24, R82), its slopes acting from the next frame (R85), and the
floor is reserved (R83). NVM_REST_BAD stays for the host to clear (R312). -/
def mirrorUnitRec (s : Block) (u : Nat) (l : List Byte) : Block :=
  let s := noteLims s u
  let s := forEach (List.range 8) s (fun s i => putM s (strBase u + 4 * i) 0xFFFFFFFF (recWord l i &&& recMask u i))
  let s := setUnit s u { unit s u with recOk := true }
  let f : Fld := if u < 32 then ⟨R.NVM_UREC_BAD_LO, u, u⟩ else ⟨R.NVM_UREC_BAD_HI, u - 32, u - 32⟩
  takeFloor (setF s f 0) u

/-- A range change of unit `u` that has not come to its switch heads for the range-change value of the record now in
force (R82, R90). -/
def newChangeValue (s : Block) (u : Nat) : Block :=
  let x := unit s u
  match x.rc with
  | some c =>
    let v := changeValue s u x.rng c.tgt
    if c.p = 0 && v != (c.valOld, c.valNew) then
      setUnit s u { x with rc := some { c with valOld := v.1, valNew := v.2, reached := false } }
    else s
  | none => s

/-- A committed unit record takes effect (R82, Table 04-2). It does so too while the link of the unit's region is lost,
where the spec does not say what becomes of the copy on the ADIE (DESIGN CHOICE, log entry 46). -/
def commitUnitRec (s : Block) (u : Nat) (l : List Byte) : Block :=
  let bad := !(unit s u).recOk
  let rest := fun (s : Block) => (getF s (strF u F.STR_RESTV_VAL), getF s (strF u F.STR_SCFG_RRANGE))
  let flt := fun (s : Block) => (getF s (strF u F.STR_FAULTV_VAL), getF s (strF u F.STR_SCFG_FRANGE))
  let t := newChangeValue (mirrorUnitRec s u l) u
  let o := ostate s u
  let e := s.sysTime + 1
  if o = 0 && bad then
    schedUnit t u e (if flag s F.GLOBAL_PINS_SAFE then .newFault else .newRest)
  else if o = 1 && rest s != rest t then schedUnit t u e .newRest
  else if o = 4 && flt s != flt t then schedUnit t u e .newFault
  else t

/-- The skew taps of cluster `c` are about to change: those in force act up to the next bit boundary (R174). -/
def noteTaps (s : Block) (c : Nat) : Block :=
  let b := unitBase (96 + c)
  let x := lane s c
  let old := x.tapOld.filter (fun p => decide (s.sysTime < p.1 + 200))
  setLane s c { x with tapOld := old ++ [(nextBit s.sysTime, getW s (b + R.LC_SKEW_LO), getW s (b + R.LC_SKEW_HI))] }

/-- The skew taps of a lane record, whose reserved bits are not kept. -/
def loadTaps (s : Block) (c : Nat) (l : List Byte) : Block :=
  let b := unitBase (96 + c)
  let s := noteTaps s c
  putM (putM s (b + R.LC_SKEW_LO) 0x3F3F3F3F (recWord l 2)) (b + R.LC_SKEW_HI) 0x3F3F3F3F (recWord l 3)

/-- A cluster whose valid record is loaded enters IDLE, or SAFE where the package is in SAFE, at the next
5 ns boundary (R169, R171), and its input lanes are armed, from the levels at their pads. -/
def laneFromPark (s : Block) (c : Nat) (l : List Byte) : Block :=
  let s := loadTaps (putM s (unitBase (96 + c) + R.LC_LCFG) 0xFFFFFFFF (recWord l 0)) c l
  let st := if modeOf s = 4 then 4 else 1
  let s := laneCut (setF s (lF c F.LC_STATE_CSTATE) st) c (nextBit s.sysTime) { st := st, cfg := laneCfg s c }
  if c = 7 then syncInputs s [] else s

/-- A lane record in force: LEVELS follow it, and what the pins drive follows them at once; from PARK the cluster enters
IDLE. At a CAL_COMMIT (`taps`) the taps act too and the EYE registers show the eyes committed (R176, R343). NVM_LANE_BAD is
cleared by a write only (Table 08-10). -/
def commitLaneRec (s : Block) (c : Nat) (l : List Byte) (taps : Bool) : Block :=
  let b := unitBase (96 + c)
  let s := putM s (b + R.LC_LEVELS) 0xFFFFFFFF (recWord l 1)
  let s := if taps then forEach (List.range 4) s (fun s i =>
      putM s (b + R.LC_EYE01 + 4 * i) 0xFFFFFFFF (recWord l (4 + i)))
    else s
  let s := setF s ⟨R.NVM_LREC_BAD, c, c⟩ 0
  if getF s (lF c F.LC_STATE_CSTATE) = 0 then laneFromPark s c l
  else
    let s := setLane s c { lane s c with levAt := s.sysTime + 1 }
    if taps then loadTaps s c l else s

/-! ## The audit log (R345) -/

/-- The RTC's seconds. -/
def rtcSec (s : Block) : Nat := get64 s F.AON_RTC_LO_SEC F.AON_RTC_HI_SEC

/-- Where audit record `sq` lies. -/
def auditAddr (sq : Nat) : Nat := 0x800000 + ((sq + 65535) % 65536) * 64

/-- The next audit sequence number. -/
def auditNext (s : Block) : Nat := get64 s F.CAL_AUDIT_SEQ_LO_SEQ F.CAL_AUDIT_SEQ_HI_SEQ

/-- The bytes of an audit record. `info`: KIND, ORIGIN, FAILED, OBJECT, OLD_CRC, NEW_CRC, slot SEQ, REF_ID,
RES_ID, REFV, RESV. -/
def auditBytes (s : Block) (sq : Nat) (info : List Nat) : List Byte :=
  let g := fun i => info.getD i 0
  let l := natBytes sq 8 ++ natBytes (rtcSec s) 8 ++
    natBytes (g 0 + g 1 * 2 ^ 8 + g 2 * 2 ^ 16) 4 ++ natBytes (g 3) 4 ++ natBytes (g 4) 4 ++
    natBytes (g 5) 4 ++ natBytes (g 6) 4 ++ natBytes (g 7) 4 ++ natBytes (g 8) 4 ++
    natBytes (g 9) 8 ++ natBytes (g 10) 8
  l ++ natBytes (crc32 l) 4

/-- The operations of one audit record: the erase block it opens is erased first where it holds records. -/
def auditOps (s : Block) (info : List Nat) : List NvmOp :=
  let sq := auditNext s
  let a := auditAddr sq
  let due := a % 65536 = 0 && decide (65536 < sq)
  (if due then [⟨4, a, []⟩] else []) ++ [⟨2, a, auditBytes s sq info⟩]

/-- The log holds one record more. -/
def auditDone (s : Block) : Block :=
  let sq := auditNext s
  let s := set64 s F.CAL_AUDIT_SEQ_LO_SEQ F.CAL_AUDIT_SEQ_HI_SEQ (sq + 1)
  setF s F.CAL_AUDIT_STAT_STORED (min 65536 (getF s F.CAL_AUDIT_STAT_STORED + 1))

/-- The erase block that an audit record opens has been erased with the oldest records (R345). -/
def auditErased (s : Block) : Block :=
  let s := raise s F.CAL_STATUS_AUDIT_WRAP
  setF s F.CAL_AUDIT_STAT_STORED (min 64512 (getF s F.CAL_AUDIT_STAT_STORED))

/-! ## Operations -/

/-- Bytes programmed: each becomes the AND of what was and what is programmed (R399). -/
def programBytes (m : List (Nat × Byte)) (a : Nat) : List Byte → List (Nat × Byte)
  | [] => m
  | b :: t =>
    let v := Tbl.get (fun _ => (255 : Byte)) m a &&& b
    programBytes (Tbl.set (fun _ => (255 : Byte)) m a v) (a + 1) t

/-- The effect of a completed operation on the NOR. -/
def nvmEffect (s : Block) (o : NvmOp) : Block :=
  let m := s.nvm.bytes
  let sz := if o.kind = 4 then 65536 else 4096
  let m := if o.kind = 2 then programBytes m o.addr o.data
    else m.filter (fun x => decide (x.1 < o.addr) || decide (o.addr + sz ≤ x.1))
  { s with nvm := { s.nvm with bytes := m } }

/-- A change waits for the NOR. -/
def nvmQueue (s : Block) (x : NvmTx) : Block :=
  { s with nvm := { s.nvm with txs := s.nvm.txs ++ [x] } }

/-- Replace a change in the queue. -/
def nvmSwap (s : Block) (x y : NvmTx) : Block :=
  { s with nvm := { s.nvm with txs := s.nvm.txs.map (fun z => if z = x then y else z) } }

/-- The change of class `c` whose ring comes first from the round-robin pointer on; of one ring, the earliest (R366). -/
def nvmTurn (s : Block) (c : Nat) : Option NvmTx :=
  (List.range 5).findSome? (fun i => s.nvm.txs.find? (fun x => x.cls == c && x.ring == (s.nvm.rr + i) % 5))

/-- The change that the NOR serves next: one of the safety class first, then the one in course, then the host's, then the
background's, within a class by the rings' round-robin (R366, Table 16-6, R401). -/
def nvmPick (s : Block) : Option NvmTx :=
  ((s.nvm.txs.find? (fun x => x.cls == 2)).orElse fun _ => s.nvm.txs.find? (fun x => x.st == 2)).orElse fun _ =>
    (nvmTurn s 1).orElse fun _ => nvmTurn s 0

/-- The NOR is granted to change `x`: the pointer goes to the ring after its own; the safety class has no rings. -/
def nvmGranted (s : Block) (x : NvmTx) : Block :=
  if x.cls = 2 then s else { s with nvm := { s.nvm with rr := (x.ring + 1) % 5 } }

/-- The operations of a change, from the copies as they now stand. -/
def txOps (s : Block) (x : NvmTx) : List NvmOp :=
  let data := x.info.map (fun w => (BitVec.ofNat 8 w : Byte))
  match x.kind with
  | 1 => rewriteOps s 1 (fun l => overlay l (unitRecOff x.obj) data)
  | 2 => rewriteOps s 1 (fun l => overlay l (laneRecOff x.obj) data)
  | 10 => rewriteOps s 1 (fun l => overlay l (laneRecOff x.obj) data)
  | 5 => rewriteOps s 5 (fun l => overlay l 8 data)
  | 6 => rewriteOps s 6 (fun l => overlay l 8 data)
  | 7 => rewriteOps s 7 (fun l => overlay l (8 + 4 * getF s F.NVM_RETIRED_MAP_PAGES) data)
  | 9 => auditOps s x.info
  | _ => x.ops

/-- The lane record `old` with the taps and eyes of a calibration in place, each where it was measured; every other field
stays (R343). `info`: taps measured, eyes measured, eight taps, eight eyes. -/
def calLaneRec (old : List Byte) (info : List Nat) : List Byte :=
  let g := fun i => info.getD i 0
  let taps := if g 0 = 1 then (List.range 8).map (fun j => (BitVec.ofNat 8 (g (2 + j)) : Byte)) else (old.drop 8).take 8
  let eyes := if g 1 = 1 then (List.range 8).flatMap (fun j => natBytes (g (10 + j)) 2) else (old.drop 16).take 16
  let body := old.take 8 ++ taps ++ eyes
  body ++ natBytes (crc32 body) 4

/-- OLD_CRC and NEW_CRC of a change's audit record. -/
def withCrcs (x : NvmTx) (old new : Nat) : NvmTx := { x with audit := (x.audit.set 4 old).set 5 new }

/-- A change as its first operation begins: a calibrated lane cluster's record is made from the one in force then, and the
audit record names the CRC of the record replaced and of the new one (R343, Table 15-7). -/
def txPrepare (s : Block) (x : NvmTx) : NvmTx :=
  let new := x.info.map (fun w => (BitVec.ofNat 8 w : Byte))
  match x.kind with
  | 1 => withCrcs x (((unitRec s x.obj).map (recWord · 7)).getD 0) (recWord new 7)
  | 2 => withCrcs x (((laneRec s x.obj).map (recWord · 8)).getD 0) (recWord new 8)
  | 3 =>
    let pages := x.ops.filter (fun o => o.kind == 2)
    let l := pages.flatMap (fun o => o.data)
    withCrcs x (crc32 (nvmBytes s ((pages.map (fun o => o.addr)).headD 0) l.length)) (crc32 l)
  | 10 =>
    let old := (laneRec s x.obj).getD (List.replicate 36 0)
    let l := calLaneRec old x.info
    withCrcs { x with info := l.map (fun b => b.toNat) } (recWord old 8) (recWord l 8)
  | _ => x

/-- The first operation of change `x` begins, or the next one where it was under way. -/
def nvmBegin (s : Block) (x : NvmTx) : Block :=
  let y := if x.st = 2 then x else txPrepare s x
  let ops := if y.ops.isEmpty then txOps s y else y.ops
  let s := nvmSwap s x { y with ops := ops, st := 2 }
  match ops with
  | [] => s
  | o :: _ =>
    let s := setF (setF s F.NVM_STATE_BUSY 1) F.NVM_STATE_OP o.kind
    setF (setF s F.NVM_STATE_DPD 0) F.NVM_OP_ADDR_ADDR o.addr

/-- The command of a change. -/
def isTxJob (x : NvmTx) (j : Job) : Bool := j.id == x.id

/-- The command of a change is to end with `status` and DETAIL `dt`. -/
def txRefuse (s : Block) (x : NvmTx) (status dt : Nat) : Block :=
  let l := s.cmd.jobs.map (fun j => if isTxJob x j then
    { j with todo := (0x1000 + status) :: j.todo.drop 1, detail := dt } else j)
  { s with cmd := { s.cmd with jobs := l } }

/-- A change leaves the queue and its charge is released (Table 16-4). -/
def nvmDrop (s : Block) (x : NvmTx) : Block :=
  let s := { s with nvm := { s.nvm with txs := s.nvm.txs.erase x } }
  if x.st = 2 then
    if x.cls = 2 then pacVisit (pacUncharge s 6 50 true) else pacRelease s 6 50
  else s

/-- The hierarchy index of a change's request: the unit whose record it writes, else the CDIE (R361). -/
def txIndex (x : NvmTx) : Nat :=
  match x.kind with
  | 1 | 8 => x.obj
  | 2 | 10 => 96 + x.obj
  | _ => 110

/-- The NOR, if idle, takes up the next change: PAC is asked first, in the change's class. -/
def nvmKick (s : Block) : Block :=
  if flag s F.NVM_STATE_BUSY then s
  else
    match nvmPick s with
    | none => s
    | some x =>
      if x.st = 2 then nvmBegin s x
      else if x.cls = 2 then nvmBegin (pacCharge s 6 50 true) x
      else if x.st = 1 then
        if s.cmd.jobs.any (fun j => isTxJob x j && decide (0x1000 ≤ j.todo.headD 0)) then nvmDrop s x
        else if s.sys.queue.any (fun r => r.ring == x.ring && r.id == x.id) then s
        else nvmBegin (nvmGranted s x) x
      else
        let r : PacReq := ⟨x.cls, txIndex x, [(6, 50)], .cmd Op.nvmWrite, x.ring, x.id, s.now + toCmd s⟩
        let a := pacAsk s r false
        match a.2 with
        | .grant => nvmBegin (nvmGranted a.1 x) x
        | .queue => nvmSwap a.1 x { x with st := 1 }
        | .deny => txRefuse (nvmDrop a.1 x) x Sts.powerDenied 0

/-- The bytes of a change as they were sent. -/
def txData (x : NvmTx) : List Byte := x.info.map (fun w => (BitVec.ofNat 8 w : Byte))

/-- SEQ of the record table in force. -/
def tableSeq (s : Block) : Nat :=
  match copyInForce s 1 with
  | some b => nvmWord s b
  | none => 0

/-- What a completed change does besides its bytes. -/
def txEffect (s : Block) (x : NvmTx) : Block :=
  match x.kind with
  | 1 => setF (commitUnitRec s x.obj (txData x)) F.NVM_TBL_SEQ_SEQ (tableSeq s)
  | 2 => setF (commitLaneRec s x.obj (txData x) false) F.NVM_TBL_SEQ_SEQ (tableSeq s)
  | 10 => setF (commitLaneRec s x.obj (txData x) true) F.NVM_TBL_SEQ_SEQ (tableSeq s)
  | 5 => setF (setF s F.NVM_BOOT_PREF (x.info.headD 0)) F.HOSTCMD_UE_SLOT_PREF (x.info.headD 0)
  | 7 => incF s F.NVM_RETIRED_MAP_PAGES
  | 9 => auditDone s
  | _ => s

/-- A page programmed for a command counts in its STEPS where it is an NVM_WRITE's own (R399). -/
def txStep (s : Block) (x : NvmTx) : Block :=
  if x.kind = 9 then s
  else
    let l := s.cmd.jobs.map (fun j => if isTxJob x j && j.op == Op.nvmWrite then
      { j with steps := j.steps + 1 } else j)
    { s with cmd := { s.cmd with jobs := l } }

/-- The change whose operation is in progress. -/
def nvmCurrent (s : Block) : Option NvmTx :=
  s.nvm.txs.find? (fun x => x.st == 2 && (match x.ops with
    | o :: _ => o.kind == getF s F.NVM_STATE_OP && o.addr == getF s F.NVM_OP_ADDR_ADDR
    | [] => false))

/-- A failed operation: the counters and flags, and the change is dropped; a failure of the last program of
a change is found by its verify (R398). -/
def nvmFailed (s : Block) (x : NvmTx) (o : NvmOp) : Block :=
  let s := incF s F.NVM_FAILS_COUNT
  let s := if o.kind = 2 then
      raise s (if x.ops.length = 1 then F.NVM_STATUS_VERIFY_FAIL else F.NVM_STATUS_PROG_FAIL)
    else raise s F.NVM_STATUS_ERASE_FAIL
  txRefuse (nvmDrop s x) x Sts.nvmFail (if x.kind = 8 || x.kind = 10 then x.obj else 0)

/-- A completed operation: its effect and counter, then the next operation of the change; after the last,
the change takes effect, and its audit record follows under the same charge (R346). -/
def nvmCompleted (s : Block) (x : NvmTx) (o : NvmOp) : Block :=
  let s := nvmEffect s o
  let s := if o.kind = 2 then txStep (incF s F.NVM_PROGS_COUNT) x else incF s F.NVM_ERASES_COUNT
  let s := if x.kind = 9 && o.kind = 4 then auditErased s else s
  match x.ops.drop 1 with
  | [] =>
    if x.audit.isEmpty then txEffect (nvmDrop s x) x
    else txEffect (nvmSwap s x ⟨9, x.obj, x.cls, x.ring, x.id, x.audit, [], 2, []⟩) x
  | rest => nvmSwap s x { x with ops := rest }

/-- The end of the NOR operation in progress (R400). -/
def nvmOpEnd (s : Block) (ok : Bool) : Block :=
  match nvmCurrent s with
  | none => s
  | some x =>
    match x.ops with
    | [] => s
    | o :: _ =>
      let s := setF (setF s F.NVM_STATE_BUSY 0) F.NVM_STATE_OP 0
      let s := { s with nvm := { s.nvm with idle := s.now } }
      nvmKick (if ok then nvmCompleted s x o else nvmFailed s x o)

/-- A physical page entered in the retired-page map, in the safety class; a map that is full, the entries on their way
counted, takes no more (R111). -/
def mapRetired (s : Block) (p : Nat) : Block :=
  if 1024 ≤ getF s F.NVM_RETIRED_MAP_PAGES + s.nvm.txs.countP (fun x => x.kind == 7) then raise s F.MMU_STATUS_RETIRE_FULL
  else nvmKick (nvmQueue s ⟨7, p, 2, 4, 0, (natBytes p 4).map (fun b => b.toNat), [], 0, []⟩)

end Sys2Proof.Machine
end

