-- ==== Sys2Proof/Machine/Compaction.lean ====
section
/-! DEFINITION. Page moves: compaction (R109, R110) and retirement (R111). -/

namespace Sys2Proof.Machine

/-- Compaction moves the pages of a segment in this state (Table 05-1), unless a LIFT descriptor is open on
it (R109). -/
def movable (s : Block) (id : Nat) : Bool :=
  let g := seg s id
  (g.st == 2 || g.st == 3 || g.st == 5 || (g.st == 6 && !capArmedOn s id)) &&
    !liftOpen s id [1, 2, 3]

/-- The virtual pages of segment `id` that are mapped, in ascending order. -/
def mappedVpns (s : Block) (id : Nat) : List Nat :=
  let g := seg s id
  ((List.range g.pages).map (· + g.vpn)).filter (fun v => (pte s v).isSome)

/-- The lowest free run of `n` pages: it begins at a free page, or at the first page never used. -/
def freeRun (s : Block) (n : Nat) : Option Nat :=
  (s.mem.free ++ [s.mem.bump]).find? (fun p => (List.range n).all (fun i => pageFree s (p + i)))

/-- Where compaction puts virtual page `v`: behind the mapped page before it, its segment's first page at the start of a free
run that holds all of them, so that they end consecutive (R109). A page for which there is no such place is skipped. -/
def moveTarget (s : Block) (v : Nat) (e : Pte) : Option Nat :=
  let vs := mappedVpns s e.seg
  match ((vs.filter (fun w => decide (w < v))).getLast?).bind (pte s) with
  | some d => if pageFree s (d.ppn + 1) then some (d.ppn + 1) else none
  | none => freeRun s vs.length

/-- A move begins: the destination is taken and PTE.MOVE set (Table 05-4 phase 1), after a walk in class NRT (R106). -/
def beginMove (s : Block) (v : Nat) (e : Pte) (dst : Nat) (retire : Bool) : Block :=
  let s := tlbAccess s false v
  let s := setPte (takePage s dst) v (some { e with move := true })
  let s := { s with mem := { s.mem with move := some ⟨v, dst, retire, s.now⟩ } }
  let s := setF (setF s F.MMU_CMP_STAT_BUSY 1) F.MMU_CMP_STAT_SEG e.seg
  let s := setB s F.MMU_CMP_STAT_RETIRE retire
  if retire then pacCharge s 6 100 true else s

/-- The running SEG_COMPACT. -/
def compactJob (s : Block) : Option Job :=
  s.cmd.jobs.find? (fun j => j.op == Op.segCompact && j.todo.headD 0 == 1)

/-- The virtual page that physical page `p` is mapped at. -/
def vpnOf (s : Block) (p : Nat) : Option (Nat × Pte) :=
  s.mem.ptes.findSome? (fun x => x.2.bind (fun e => if e.ppn = p then some (x.1, e) else none))

/-- The page waits for retirement no more. -/
def retireGone (s : Block) (p : Nat) : Block :=
  { s with sys := { s.sys with retire := s.sys.retire.filter (fun q => q != p) },
           mem := { s.mem with deferred := s.mem.deferred.filter (fun q => q != p) } }

/-- A page that nothing maps is retired at once. A page of the system area has no entry and is not moved; one retired
before is not retired again. -/
def retireFree (s : Block) (p : Nat) : Block :=
  if p < 8192 || s.mem.retired.contains p then retireGone s p
  else
    let s := retireGone (if pageFree s p then takePage s p else s) p
    mapRetired { s with mem := { s.mem with retired := s.mem.retired ++ [p] } } p

/-- Retirement of page `p` begins, unless the engine moves a page already, or is deferred for want of a free page, which
is flagged once (R111). -/
def startRetireOf (s : Block) (p : Nat) : Block :=
  if s.mem.move.isSome then s
  else
    match vpnOf s p with
    | none => retireFree s p
    | some (v, e) =>
      match lowestFree s with
      | some d => beginMove s v e d true
      | none =>
        if s.mem.deferred.contains p then s
        else raise { s with mem := { s.mem with deferred := s.mem.deferred ++ [p] } } F.MMU_STATUS_RETIRE_DEFER

/-- The retirements that wait, in order, up to the first that needs the engine. -/
def startRetire (s : Block) : Block := forEach s.sys.retire s startRetireOf

/-- The next page of the running SEG_COMPACT begins to move; pages of segments that may not be moved, or
for which there is no free run, are skipped and counted in its result. -/
def startCompact (s : Block) : Block :=
  match compactJob s with
  | none => s
  | some j =>
    let ok := fun v => match pte s v with
      | some e => movable s e.seg && (moveTarget s v e).isSome
      | none => false
    let vs := j.todo.drop 1
    let rest := vs.dropWhile (fun v => !ok v)
    let k := { j with result := j.result + (vs.length - rest.length), todo := 1 :: rest.drop 1 }
    let s := putJob s j k
    match rest with
    | [] => s
    | v :: _ =>
      match pte s v with
      | none => s
      | some e =>
        match moveTarget s v e with
        | some d => beginMove s v e d false
        | none => s

/-- The engine, if idle and the controller serving requests, begins its next move: retirements first. -/
def startMove (s : Block) : Block :=
  if s.mem.move.isSome || dramBad s || dramStalled s then s
  else
    let s := startRetire s
    if s.mem.move.isSome then s else startCompact s

/-- The SEG_COMPACT that runs, with no page left and no move in course, completes OK and gives its power back (R109). -/
def compactEnd (s : Block) : Block :=
  match compactJob s with
  | some j =>
    if (j.todo.drop 1).isEmpty && s.mem.move.isNone then pacRelease (endJob s j Sts.ok 0) 6 100 else s
  | none => s

/-- The engine goes on: its next move, and the end of every SEG_COMPACT that has none left. -/
def resumeMoves (s : Block) : Block :=
  forEach (s.cmd.jobs.filter (fun j => j.op == Op.segCompact && j.todo.headD 0 == 1)) (compactEnd (startMove s))
    (fun s _ => compactEnd (startMove s))

/-- A SEG_COMPACT looked at: one stopped ends, one that PAC has granted starts; its steps are the pages moved (R109). -/
def settleCompact (s : Block) (j : Job) : Block :=
  let hd := j.todo.headD 0
  if 0x1000 ≤ hd then resumeMoves (endJob s j (hd - 0x1000) 0)
  else if hd = 0 then
    if (queuedFor s j).isEmpty then resumeMoves (putJob s j { j with steps := 0, todo := 1 :: j.todo.drop 1 })
    else s
  else resumeMoves s

/-- The bytes of page `old` copied to page `dst`. -/
def copyPage (s : Block) (old dst : Nat) : Block :=
  let s := zeroPage s dst
  let src := s.mem.dram.filter (fun x => x.1 / 8192 == old)
  let d := src.foldl (fun m x =>
    Tbl.set (fun _ => (0 : Byte)) m (dst * 8192 + x.1 % 8192) x.2) s.mem.dram
  { s with mem := { s.mem with dram := d } }

/-- The least time of a page copy in ns (R109, R281): 8 KiB at CMP_RATE × 8 MB/s (1 to 125, else 125), at FSP1 also at
NRT_CAP.CMP × 0.1 GB/s (at least 1). -/
def copyTime (s : Block) : Nat :=
  let r := getF s F.MMU_CTRL_CMP_RATE
  let t := 1024000 / (if r = 0 || decide (125 < r) then 125 else r)
  if flag s F.DRAMC_STATE_FSP then max t (81920 / max 1 (getF s F.DRAMC_NRT_CAP_CMP)) else t

/-- The move in course completes: the copy, the flip, the TLB, and the old page freed, or retired
(Table 05-4 phases 2 to 5; Table 05-8: one move where both are asked for). An uncorrectable word of the old page leaves
the move where it is, for the freeze to abandon (R110). -/
def finishMove (s : Block) : Block :=
  match s.mem.move with
  | none => s
  | some m =>
    match pte s m.vpn with
    | none =>
      let s := { s with mem := { s.mem with move := none } }
      returnPage (setF (setF s F.MMU_CMP_STAT_BUSY 0) F.MMU_CMP_STAT_RETIRE 0) m.dst
    | some e =>
      let s := checkRead s 7 0 0 (some e.seg) (fun w => w / 1024 == e.ppn)
      if ueMet s then s
      else
        let s := { s with mem := { s.mem with move := none } }
        let s := setF (setF s F.MMU_CMP_STAT_BUSY 0) F.MMU_CMP_STAT_RETIRE 0
        let s := injectErr (copyPage s e.ppn m.dst) (some (m.dst * 8192))
        let s := tlbDrop (setPte s m.vpn (some { e with ppn := m.dst, move := false })) m.vpn
        let s := incF s F.MMU_CMP_MOVED_PAGES
        let s :=
          if m.retire || s.sys.retire.contains e.ppn then retireFree s e.ppn else returnPage s e.ppn
        if m.retire then pacVisit (pacUncharge s 6 100 true)
        else match compactJob s with
          | some j => putJob s j { j with steps := j.steps + 1 }
          | none => s

/-- A move cut short by a freeze: the entry keeps the old page (R110). -/
def abandonMove (s : Block) : Block :=
  match s.mem.move with
  | none => s
  | some m =>
    let s := { s with mem := { s.mem with move := none } }
    let s := setF (setF s F.MMU_CMP_STAT_BUSY 0) F.MMU_CMP_STAT_RETIRE 0
    let s := match pte s m.vpn with
      | some e => setPte s m.vpn (some { e with move := false })
      | none => s
    let s := returnPage s m.dst
    if m.retire then pacVisit (pacUncharge s 6 100 true) else s

/-- SEG_COMPACT (R109): a background grant of 0.10 W on the CDIE ledger, then the moves. -/
def compactBody (s : Block) (h : Hdr) (p : List Word) : CmdRes :=
  notInBoot s <| needsDram s (dramBad s) <|
    let ids := if pb p 1 16 16 = 1 then s.mem.segs.map (fun x => x.1) else [pb p 1 15 0]
    let pages := ids.flatMap (mappedVpns s)
    let r : PacReq := ⟨0, 110, [(6, 100)], .cmd Op.segCompact, h.ring, s.cmd.cur, s.now + toCmd s⟩
    let a := pacAsk s r false
    match a.2 with
    | .deny => .failD a.1 Sts.powerDenied 0
    | _ => .wait a.1 (0 :: pages) r.due 0

end Sys2Proof.Machine
end

