-- ==== Sys2Proof/Machine/SegCommands.lean ====
section
/-! DEFINITION. The segment commands (R98, R103, R423, Table 05-2). -/

namespace Sys2Proof.Machine

/-! ## SEG_CREATE -/

/-- The parameters of SEG_CREATE break R98 or hold a reserved encoding. -/
def createBad (kind sfmt na nl len : Nat) : Bool :=
  if kind = 1 then sfmt != 0 || na != 0 || nl != 0 || decide (len < 1024) || decide (67108864 < len)
  else
    let fb := frameBytes sfmt na nl
    decide (1 < sfmt) || len % 64 != 0 || decide (len < 256) || decide (4294967232 < len) ||
      fb == 0 || decide (64 < na) || decide (8 < nl) || decide (2 ^ 32 < len * fb)

/-- Pages `l` (indices in the segment) of segment `id` mapped. -/
def mapSome (s : Block) (id : Nat) (l : List Nat) : Block :=
  let vs := l.map (fun k => (seg s id).vpn + k)
  forEach vs (noteUndo s ((vs.filter (fun v => (pte s v).isNone)).map Undo.mapped)) (fun s v => mapPage s id v)

/-- One step's 64 pages mapped; the rest is left to later steps (Table 13-2). -/
def mapSteps (s : Block) (id : Nat) (l : List Nat) (result : Nat) : CmdRes :=
  let s := mapSome s id (l.take 64)
  match l.drop 64 with
  | [] => .done s Sts.ok 0 1 result
  | rest => .more s 1 result (id :: rest)

/-- SEG_CREATE's checks and first step. -/
def createBody (s : Block) (p : List Word) : CmdRes :=
  let id := pb p 1 15 0
  let kind := pb p 1 16 16
  let sfmt := pb p 2 1 0
  let na := pb p 2 14 8
  let nl := pb p 2 19 16
  let len := pw p 3
  notInBoot s <| needsDram s (dramBad s) <|
    if createBad kind sfmt na nl len then .fail s Sts.badParam
    else if (seg s id).st != 0 || s.mem.freeing.contains id then .fail s Sts.state
    else
      let g : Seg := { st := if kind = 1 then 6 else 1, sfmt := if kind = 1 then 2 else sfmt, na := na,
                       nl := nl, len := len }
      let n := pagesOf (segSize g)
      let all := pb p 1 17 17 = 1
      match vFit s n with
      | none => .fail s Sts.noMemory
      | some v =>
        if all && decide (freePages s < n + promised s) then .fail s Sts.noMemory
        else
          let s := setSeg (noteUndo s [.desc id (seg s id)]) id { g with vpn := v, pages := n }
          mapSteps s id (if all then List.range n else []) v

/-- SEG_CREATE (0x10). -/
def effSegCreate (h : Hdr) (p : List Word) (s : Block) : Out :=
  runCmd s h 0x10 p [] (· == 4) [0x3FFFF, 0xF7F03, 0xFFFFFFFF] createBody

/-! ## SEG_OPEN -/

/-- SEG_OPEN's checks and first step; a move of one of its pages completes first (Table 05-8). -/
def openBody (s : Block) (p : List Word) : CmdRes :=
  let id := pb p 1 15 0
  let g := seg s id
  let first := pw p 2
  let count := pw p 3
  notInBoot s <| needsDram s (dramBad s) <|
    if !(g.st = 1 || g.st = 2 || g.st = 3 || g.st = 4) then .fail s Sts.state
    else if g.pin != 0 || g.st = 3 then .fail s Sts.activeSegment
    else if g.pages < first + count then .fail s Sts.badParam
    else
      let free := if pb p 1 16 16 = 0 then [] else
        ((List.range count).map (· + first)).filter (fun k => (pte s (g.vpn + k)).isNone)
      if freePages s < free.length + promised s then .fail s Sts.noMemory
      else
        let mine := match s.mem.move with
          | some m => decide (g.vpn ≤ m.vpn) && decide (m.vpn < g.vpn + g.pages)
          | none => false
        let s := if mine then finishMove s else s
        if ueMet s then .fail s Sts.dramFrozen
        else
          let s := if g.st = 2 then setSeg (noteUndo s [.desc id g]) id { seg s id with st := 1 } else s
          mapSteps (if mine then resumeMoves s else s) id free 0

/-- SEG_OPEN (0x13). -/
def effSegOpen (h : Hdr) (p : List Word) (s : Block) : Out :=
  runCmd s h 0x13 p [] (· == 4) [0x1FFFF, 0xFFFFFFFF, 0xFFFFFFFF] openBody

/-- A later step of SEG_CREATE or SEG_OPEN: 64 pages more (R292, R295). -/
def mapContinue (s : Block) (j : Job) : Block :=
  let id := j.todo.headD 0
  let l := j.todo.drop 1
  let s := mapSome s id (l.take 64)
  let k := { j with steps := j.steps + 1, todo := id :: l.drop 64 }
  match l.drop 64 with
  | [] => endJob s k Sts.ok 0
  | _ => putJob s j k

/-! ## SEG_SEAL -/

/-- SEG_SEAL's checks and effect. -/
def sealBody (s : Block) (p : List Word) : CmdRes :=
  let id := pb p 1 15 0
  let st := (seg s id).st
  notInBoot s <| needsDram s (dramBad s) <|
    if !(st = 1 || st = 4) then .fail s Sts.state
    else if liftOpen s id [1, 2, 3] then .fail s Sts.busy
    else .okay (sealSeg s id)

/-- SEG_SEAL (0x12). -/
def effSegSeal (h : Hdr) (p : List Word) (s : Block) : Out :=
  runCmd s h 0x12 p [] (· == 2) [0xFFFF] sealBody

/-! ## STREAM_RING_CREATE -/

/-- Two ids per word, low half first. -/
def ringIds (l : List Word) : List Nat := l.flatMap (fun w => [bits w 15 0, bits w 31 16])

/-- Member `m` may not join: not WRITABLE, in a ring, not fully mapped, or of another format (Table 05-2). -/
def memberBad (s : Block) (first : Seg) (m : Nat) : Bool :=
  let g := seg s m
  g.st != 1 || g.member || !fullyMapped s g || g.sfmt != first.sfmt || g.na != first.na ||
    g.nl != first.nl

/-- The member words of the packet, or of host memory under SRC 1; none where they are not as Table 13-3
asks. -/
def ringWords (s : Block) (h : Hdr) (p d : List Word) : Option (List Word) :=
  let n := pb p 1 23 16 + 1
  let k := (n + 1) / 2
  let l := if pb p 1 24 24 = 1 then (d ++ List.replicate k 0).take k else p.drop 1
  let ok := (if pb p 1 24 24 = 1 then p.length == 3 && !inWindow s h.ring else p.length == 1 + k) &&
    decide (3 ≤ n) && (n % 2 == 0 || bits (l.getD (k - 1) 0) 31 16 == 0)
  if ok then some l else none

/-- STREAM_RING_CREATE's checks and effect. -/
def ringCreateBody (h : Hdr) (d : List Word) (s : Block) (p : List Word) : CmdRes :=
  let id := pb p 1 15 0
  let n := pb p 1 23 16 + 1
  notInBoot s <| needsDram s (dramBad s) <|
    match ringWords s h p d with
    | none => .fail s Sts.badParam
    | some l =>
      let ids := (ringIds l).take n
      let first := seg s (ids.headD 0)
      if (seg s id).st != 0 || s.mem.freeing.contains id || ids.any (memberBad s first) ||
          decide (ids.dedup.length ≠ n) then .fail s Sts.state
      else
        let s := forEach (ids.zipIdx) s (fun s x =>
          setSeg s x.1 { seg s x.1 with st := 4, member := true, ring := id, idx := x.2 })
        let s := setSeg s id { st := 7, ring := id, idx := n - 1 }
        .okay (setRing s id { members := ids })

/-- STREAM_RING_CREATE (0x14). -/
def effStreamRingCreate (h : Hdr) (p d : List Word) (s : Block) : Out :=
  runCmd s h 0x14 p d (fun n => decide (2 ≤ n)) [0x1FFFFFF] (ringCreateBody h d)

/-! ## SEG_FREE -/

/-- The segments that SEG_FREE of `id` frees: itself, or a ring and its members. -/
def freeSet (s : Block) (id : Nat) : List Nat :=
  if (seg s id).st = 7 then id :: (ringOf s id).members else [id]

/-- A waiting or held LIFT descriptor on `id` ends ABORTED (Table 05-8): the channel is idle, and its
command completes so. -/
def liftAbort (s : Block) (c status : Nat) : Block :=
  let x := lift s c
  let w0 := (x.desc.headD 0).toNat % 2 ^ 16 + status * 2 ^ 16 + 2 ^ 31
  let s := setLift s c { x with st := 0, desc := [], data := [], lstat := status }
  let s := { s with cmd := { s.cmd with
    hostMem := putBytes s.cmd.hostMem x.addr (wordBytes (Word.ofNat w0)) } }
  match s.cmd.jobs.find? (fun j => j.op == Op.liftSubmit && j.todo.headD 0 == c) with
  | some j => endJob s { j with steps := x.done, result := 0 } status 0
  | none => s

/-- The descriptors and rings of the ids return to FREE; their virtual ranges stay reserved until the last
page is returned. -/
def freeDescs (s : Block) (ids : List Nat) : Block :=
  forEach ids s (fun s i =>
    let g := seg s i
    let s := setSeg s i { st := 0, vpn := g.vpn, pages := g.pages }
    setRing s i {})

/-- The freed ids are done with. -/
def freeEnd (s : Block) (ids : List Nat) : Block :=
  let s := forEach ids s (fun s i => setSeg s i {})
  { s with mem := { s.mem with freeing := s.mem.freeing.filter (fun i => !ids.contains i) } }

/-- The page table entries of the pages that a SEG_FREE returns, kept until it completes (R304). -/
def noteEntries (s : Block) (l : List Nat) : Block :=
  noteUndo s (l.filterMap (fun v => (pte s v).map (Undo.entry v)))

/-- SEG_FREE's checks and first step. -/
def freeBody (s : Block) (p : List Word) : CmdRes :=
  let id := pb p 1 15 0
  let g := seg s id
  notInBoot s <| needsDram s (dramBad s) <|
    if g.st = 0 || g.member then .fail s Sts.state
    else
      let ids := freeSet s id
      if ids.any (fun i => (seg s i).pin != 0 || (seg s i).st == 3 ||
          ((seg s i).st == 6 && capArmedOn s i)) then .fail s Sts.activeSegment
      else if ids.any (fun i => liftOpen s i [1]) then .fail s Sts.busy
      else
        let s := forEach (List.range 8) s (fun s c =>
          let x := lift s c
          if (x.st = 2 || x.st = 3) && ids.contains x.seg then liftAbort s c Sts.aborted else s)
        let mine := match s.mem.move with
          | some m => ids.any (fun i => (mappedVpns s i).contains m.vpn)
          | none => false
        let s := if mine then finishMove s else s
        if ueMet s then .fail s Sts.dramFrozen
        else
          let pages := ids.flatMap (mappedVpns s)
          let s := freeDescs (noteUndo s (ids.map (fun i => .desc i (seg s i)) ++ ids.map (fun i => .ring i (ringOf s i)))) ids
          let s := forEach (pages.take 64) (noteEntries s (pages.take 64)) unmapPage
          match pages.drop 64 with
          | [] => .okay (resumeMoves (freeEnd s ids))
          | rest =>
            let s := resumeMoves { s with mem := { s.mem with freeing := s.mem.freeing ++ ids } }
            .more s 1 0 (ids.length :: (ids ++ rest))

/-- SEG_FREE (0x11). -/
def effSegFree (h : Hdr) (p : List Word) (s : Block) : Out :=
  runCmd s h 0x11 p [] (· == 2) [0xFFFF] freeBody

/-- A later step of SEG_FREE: 64 pages more returned. -/
def freeContinue (s : Block) (j : Job) : Block :=
  let n := j.todo.headD 0
  let ids := (j.todo.drop 1).take n
  let pages := j.todo.drop (1 + n)
  let s := forEach (pages.take 64) (noteEntries s (pages.take 64)) unmapPage
  match pages.drop 64 with
  | [] => resumeMoves (endJob (freeEnd s ids) { j with steps := j.steps + 1 } Sts.ok 0)
  | rest => resumeMoves (putJob s j { j with steps := j.steps + 1, todo := n :: (ids ++ rest) })

/-! ## SEG_COMPACT, PAGE_MOVE, RETIRE_DEFERRED -/

/-- SEG_COMPACT (0x16). A grant at once begins the moves. -/
def effSegCompact (h : Hdr) (p : List Word) (s : Block) : Out :=
  match runCmd s h 0x16 p [] (· == 2) [0x1FFFF] (fun s p => compactBody s h p) with
  | .next t =>
    .next (match t.cmd.jobs.find? (fun j => j.op == Op.segCompact && j.h == h) with
      | some j => settleCompact t j
      | none => t)
  | o => o

/-- A page copy completes and the entry flips (R110); none in course, one that the rate limits do not let complete yet, or a
controller that serves no request: nothing. -/
def effPageMove (s : Block) : Out :=
  match s.mem.move with
  | none => .next s
  | some m =>
    .next (if dramBad s || dramStalled s || decide (s.now < m.began + copyTime s) then s
      else
        let s := finishMove s
        if ueMet s then s else resumeMoves s)

/-- A deferred retirement starts once a page is free (R111). -/
def effRetireDeferred (s : Block) : Out :=
  .next (if s.sys.retire.isEmpty then s else resumeMoves s)

/-! ## The meanings -/

/-- SEG_CREATE (0x10), done to the block; the queue stays. -/
def execSegCreate (h : Hdr) (p : List Word) (s : State) : Host.Outcome State Fault Refusal :=
  onBlock s (effSegCreate h p)

/-- SEG_SEAL (0x12), done to the block; the queue stays. -/
def execSegSeal (h : Hdr) (p : List Word) (s : State) : Host.Outcome State Fault Refusal :=
  onBlock s (effSegSeal h p)

/-- STREAM_RING_CREATE (0x14), done to the block; the queue stays. -/
def execStreamRingCreate (h : Hdr) (p d : List Word) (s : State) : Host.Outcome State Fault Refusal :=
  onBlock s (effStreamRingCreate h p d)

/-- SEG_COMPACT (0x16), done to the block; the queue stays. -/
def execSegCompact (h : Hdr) (p : List Word) (s : State) : Host.Outcome State Fault Refusal :=
  onBlock s (effSegCompact h p)

/-- A deferred retirement starts once a page is free (R111), done to the block; the queue stays. -/
def execRetireDeferred (s : State) : Host.Outcome State Fault Refusal :=
  onBlock s (effRetireDeferred)

end Sys2Proof.Machine
end

