-- ==== Sys2Proof/Machine/Chain.lean ====
section
/-! DEFINITION. The output chain of a P or D unit after stage 4: frames on their way to the pin (R5, R55), rate expansion
and the ×32 interpolator (R43, R44), the excitation of a P unit and stage 5a (R61 to R66), the modulator's input (R45),
and what stands at the pins (R63, R69, R71 to R74). -/

namespace Sys2Proof.Machine

/-! ## Frames in the chain -/

/-- The pin of unit `u` follows the programmed fields: ACTIVE, HOLD, and a ramp toward the playback value or a held one
(R81). -/
def follows (s : Block) (u : Nat) : Bool :=
  match ostate s u with
  | 2 => true
  | 3 => true
  | 5 => match (unit s u).goal with
    | .play => true
    | .value _ _ => true
    | _ => false
  | _ => false

/-- The frame at boundary `b`, whose value stage 4 has just corrected, enters the chain; what the chain still needs
stays: the frames that have not reached their pin time and those that stages 5, 5a and 8 look back on (R55). -/
def enterChain (s : Block) (u b : Nat) : Block :=
  let x := unit s u
  let t := unitT s u
  let n := latFrames s u
  let lin := getF s (uF u F.P_CTRL_INTERP) == 1 && decide (800 < t)
  let f : ChainFrame := ⟨b, b + n * t, t, x.y, x.rng, switchOpen s u, ostate s u == 0, x.brg, lin⟩
  setUnit s u { x with chain := (f :: x.chain).take (n + 16) }

/-- The frame whose pin time is the last at or before `t`, and the one that entered after it. -/
def frameAt : List ChainFrame → Nat → Option (ChainFrame × ChainFrame)
  | [], _ => none
  | f :: l, t => if f.pin ≤ t then some (f, f) else match l with
    | [] => none
    | g :: _ => if g.pin ≤ t then some (g, f) else frameAt l t

/-- Stage 5's stream at 1.25 MS/s, referred to the pin at `t`: the frame's value repeated, or one of the linear steps
toward the next frame's, to nearest with ties to even (R43). -/
def streamAt (l : List ChainFrame) (t : Nat) : Int :=
  match frameAt l t with
  | none => 0
  | some (f, g) =>
    if f.lin then f.y + divEven ((g.y - f.y) * ((t - f.pin) / 800 * 800 : Nat)) f.t else f.y

/-- Tap `d` of three moving averages of 32 in a row, which with the repetition of each sample 32 times make the
fourth-order interpolator of R44; the taps add up to 2^15. -/
def cicTap (d : Nat) : Int :=
  let c := fun (k : Int) => if k < 0 then 0 else (k + 1) * (k + 2) / 2
  c d - 3 * c ((d : Int) - 32) + 3 * c ((d : Int) - 64)

/-- Stage 5's output at f_M, referred to the pin at `t`: the interpolator centred on the pin time (R44, R55). -/
def stage5 (l : List ChainFrame) (t : Nat) : Int :=
  divEven ((List.range 94).foldl (fun a d => a + cicTap d * streamAt l (t + 1150 - 25 * d)) 0) 32768

/-! ## Excitation (R61 to R66) -/

/-- π as a fraction of 2^48. -/
def piQ : Int := 884279719003555

/-- sin of `k` × 2^-32 turn in the first quarter, as a fraction of 2^48, by its series. -/
def sinQuarter (k : Nat) : Int :=
  let x := (k : Int) * piQ / 2 ^ 31
  let x2 := x * x / 2 ^ 48
  x * ([6, 20, 42, 72, 110, 156, 210, 272].foldr (fun d t => 2 ^ 48 - x2 * t / (2 ^ 48 * d)) (2 ^ 48 : Int)) / 2 ^ 48

/-- sin of `k` × 2^-32 turn, as a fraction of 2^48. -/
def sinTurn (k : Nat) : Int :=
  let q := 2 ^ 30
  let r := k % q
  match k / q % 4 with
  | 0 => sinQuarter r
  | 1 => sinQuarter (q - r)
  | 2 => -sinQuarter r
  | _ => -sinQuarter (q - r)

/-- a·cos θ + b·sin θ in µV, θ in 2^-32 turn. -/
def fundamental (a b : Int) (theta : Nat) : Int :=
  divEven (a * sinTurn (theta + 2 ^ 30) + b * sinTurn theta) (2 ^ 48)

/-- 1 / hrec(fc) = (1 + (fc / 1 MHz)²)^(3/2) as a fraction of 2^60, `fc` in mHz (R65). -/
def recGain (fc : Nat) : Nat :=
  let a := (10 ^ 18 + fc * fc) * 2 ^ 40 / 10 ^ 18
  natSqrt (a * a * a)

/-- What CARRIER mode adds to e[k] while the tracker is locked, fp − f1 in µV (R65); `ps` is XDELAY. -/
def compensation (x : ExcSample) (ps : Nat) : Int :=
  let ahead := x.theta + x.fc * ps * 2 ^ 32 / 10 ^ 15
  divEven (fundamental x.a x.b ahead * recGain x.fc) (2 ^ 60) - fundamental x.a x.b x.theta

/-- A field of the word of XCFG that unit `u` follows (R81). -/
def xcfgF (s : Block) (u : Nat) (f : Fld) : Nat := bits (unit s u).xcfg f.hi f.lo

/-- FNOM's period in ns (Table 03-6). -/
def fnomPeriod (s : Block) (u : Nat) : Nat := 10 ^ 10 / max 1 (xcfgF s u F.BRG_XCFG_FNOM)

/-- The tracker of P unit `u` runs: CARRIER mode in the ratiometric range. -/
def tracking (s : Block) (u : Nat) : Bool :=
  getF s (uF u F.P_RANGE_ACT) == 4 && xcfgF s u F.BRG_XCFG_EXMODE == 1

/-- The tracker is locked. -/
def locked (s : Block) (u : Nat) : Bool := tracking s u && flag s (F.BRG_XSTAT_TRK_LOCK.at (brgBase u))

/-- The share of compensation in E at instant `t`, of 2^24: it moves linearly over one period of FNOM (R66). -/
def blendShare (s : Block) (u t : Nat) : Nat :=
  let x := (unit s u).exc
  let to' := if locked s u then 2 ^ 24 else 0
  let p := fnomPeriod s u
  let d := t + 1 - x.blendAt
  if x.blendAt = 0 || decide (p ≤ d) then to'
  else ((x.blendW : Int) + ((to' : Int) - x.blendW) * d / p).toNat

/-- E moves from its present share of compensation to the other state's from now on (R66). -/
def startBlend (s : Block) (u : Nat) : Block :=
  let w := blendShare s u s.sysTime
  let x := unit s u
  setUnit s u { x with exc := { x.exc with blendAt := s.sysTime + 1, blendW := w } }

/-- e[k] in µV (R59). -/
def excRaw (x : ExcSample) : Int := x.vp - x.vn

/-- D_EX in ps: what calibration measured, or the nominal value (R62, R341). -/
def excDelay (s : Block) (u : Nat) : Nat := getF s (F.BRG_XDELAY_PS.at (brgBase u))

/-- E in µV for a sample taken at instant `t` (R64, R65, R66). -/
def excUsed (s : Block) (u t : Nat) (x : ExcSample) : Int :=
  let w := blendShare s u t
  if w = 0 then excRaw x else excRaw x + divEven (compensation x (excDelay s u) * w) (2 ^ 24)

/-- The sample of the tracking converter that stands at instant `t`, one each f_M cycle; after the newest that a window has
brought, that one (DEDUCED, log entry 50). -/
def excAt (x : ExcSt) (t : Nat) : ExcSample :=
  x.win.getD (min ((x.winAt - 1 - t + 24) / 25) (x.win.length - 1)) ⟨0, 0, 0, 0, 0, 0⟩

/-- g = E / 16 V, a signed 24-bit fraction that saturates at ±1 (R61, R68). -/
def excFactor (e : Int) : Int := satS 24 (divEven (e * 2 ^ 23) 16000000)

/-- The tracker has been unlocked for 64 periods of FNOM (R66). -/
def longUnlocked (s : Block) (u : Nat) : Bool :=
  let x := (unit s u).exc
  tracking s u && !locked s u && x.unlockAt != 0 && decide (x.unlockAt + 64 * fnomPeriod s u ≤ s.sysTime + 1)

/-- EXC_RANGE where the tracker has been unlocked so long: looked at before the count ends or begins anew. -/
def noteUnlocked (s : Block) (u : Nat) : Block := if longUnlocked s u then raise s (uF u F.P_STATUS_EXC_RANGE) else s

/-- A changed EXMODE or FNOM restarts the tracker of unit `u` in the acquiring state; E moves from its share of compensation
to e[k] (R66). The 64 periods of a tracker that was already unlocked are counted anew from the restart: the spec says only
that it restarts (DESIGN CHOICE, log entry 50). -/
def trackerRestart (s : Block) (u : Nat) (new : Word) : Block :=
  let w := blendShare s u s.sysTime
  let s := noteUnlocked s u
  let x := unit s u
  let s := setUnit s u { x with
    xcfg := new
    exc := { x.exc with
      unlockAt := s.sysTime + 1, periods := [], blendAt := if w = 0 then 0 else s.sysTime + 1, blendW := w } }
  setF s (F.BRG_XSTAT_TRK_LOCK.at (brgBase u)) 0

/-- A P unit whose pin follows its programmed fields takes up BRIDGE and XCFG in force; in any other state the pin keeps
those it followed last (R81). -/
def followProg (s : Block) (u : Nat) : Block :=
  if u < 48 && follows s u then
    let s := setUnit s u { unit s u with brg := getW s (unitBase u + R.P_BRIDGE) }
    let x := getW s (brgBase u)
    if x = (unit s u).xcfg then s else trackerRestart s u x
  else s

/-- Stage 5a: the product, full scale 2^30 standing for 80 mV (R61). -/
def stage5a (y e : Int) : Int := divEven (y * excFactor e) (2 ^ 23)

/-! ## Stages 6 and 7 -/

/-- The modulator's input that belongs to the pin time `t`: stage 5, and in the ratiometric range stage 5a with the sample
of the tracking converter taken at `te` (R35, R61). -/
def chainOut (s : Block) (u t te : Nat) : Int :=
  let y := stage5 (unit s u).chain t
  if isRatio u (getF s (uF u F.P_RANGE_ACT)) then stage5a y (excUsed s u te (excAt (unit s u).exc te)) else y

/-- Stage 6's input as a fraction of 2^30 of the feedback span: ±1.0625 of full scale lies at ±0.75 (R45). -/
def modInput (y : Int) : Int := divEven (y * 12) 17

/-- The level of an f_M cycle, −2 to 2: the spec gives the modulator's order and span, not its coefficients, so that
the level is a free value (R45). -/
def modLevel (s : Block) : Int := (freeNat s 3 % 5 : Nat) - 2

/-- How many of the four unit elements are on at a level; which ones the mismatch shaping chooses is not given (R46). -/
def elementsOn (level : Int) : Nat := (level + 2).toNat

/-- The delay of the element clock by SKEW.TAP in ps, at the next f_M edge (R47). -/
def skewPs (s : Block) (u : Nat) : Nat := 100 * getF s (uF u F.P_SKEW_TAP)

/-! ## At the pins -/

/-! ## Stage 8 (R44) -/

/-- e^(−2π · 1.0 MHz · `k` · 25 ns) as a fraction of 2^60. -/
def poleDecay : Nat → Nat
  | 0 => 2 ^ 60
  | k + 1 => poleDecay k * 985328222034921856 / 2 ^ 60

/-- The step response of three real poles at 1.0 MHz after `k` cycles of f_M, as a fraction of 2^60 (R44):
1 − (1 + x + x²/2) · e^(−x) with x = 2π · 1.0 MHz · `k` · 25 ns. -/
def poleRise (k : Nat) : Int :=
  let x := (k : Int) * piQ / 20
  2 ^ 60 - poleDecay k * (2 ^ 48 + x + x * x / 2 ^ 49) / 2 ^ 48

/-- The weight of the level that the modulator put out `k` cycles of f_M before. -/
def poleTap (k : Nat) : Int := poleRise (k + 1) - poleRise k

/-- Stage 8's output for the levels `f k` that went in `k` cycles of f_M before. -/
def stage8 (f : Nat → Int) : Int :=
  divEven ((List.range 128).foldl (fun a k => a + poleTap k * f k) 0) (poleRise 128).toNat

/-- What stage 8 itself delays in ns: a step to its 50 % point, which R55 counts to the pin time, and a carrier, which
R62 counts to D_EX. -/
def filterStep : Nat := 450
def filterDelay : Nat := 477

/-- What 2^30 of the chain's output stands for, in nV in a voltage range and in pA in a current range (Tables 02-6,
02-7, R61). -/
def pinScale (u code : Nat) : Nat :=
  if isRatio u code then 80000000
  else if isCurrent code then fullScale u code * 100000000 else fullScale u code * 1000000

/-- What the code makes P or D unit `u` drive at the pin time `t`, in nV or pA. In the ratiometric
range it is the ratio times the excitation D_EX before, whatever state supplies the ratio (R61, R62, R69). -/
def pinCode (s : Block) (u t : Nat) : Int :=
  let y := stage8 (fun k => chainOut s u (t + filterStep - 25 * k) (t + filterDelay - 25 * k - excDelay s u / 1000))
  divEven (y * pinScale u (getF s (uF u F.P_RANGE_ACT))) (2 ^ 30)

/-- The voltage-mode current limit of unit `u` in µA: of a D unit ILIM.LIM, where a value below 1 acts as 1 and one above 30
as 30 (Tables 02-4, 02-5, 02-29). -/
def currentLimit (s : Block) (u : Nat) : Nat :=
  if u < 48 then 25000 else 1000 * min 30 (max 1 (getF s (uF u F.D_ILIM_LIM)))

/-- The compliance of the current range `code` of unit `u` in mV, lowest and highest (Tables 02-4, 02-5). -/
def compliance (u code : Nat) : Int × Int :=
  if u < 48 then (-5000, 5000) else if code = 8 then (0, 12000) else (-12000, 12000)

/-- Where the load holds the output of unit `u` while a limit acts (R50), on the side of what its code asks for: in current
mode the compliance in mV, in voltage mode the current limit in µA. -/
def limitHeld (s : Block) (u t : Nat) : Option Int :=
  let r := getF s (uF u F.P_RANGE_ACT)
  let neg := decide (pinCode s u t < 0)
  if !(unit s u).comp then none
  else if isCurrent r then some (if neg then (compliance u r).1 else (compliance u r).2)
  else some (if neg then -(currentLimit s u : Int) else currentLimit s u)

/-- What P or D unit `u` drives at the pin time `t`, in nV or pA, while its series switch is closed: its code, or while a
limit acts less than that, by as much as the load makes it, which the model does not know (a free value; R50). -/
def pinDrive (s : Block) (u t : Nat) : Int :=
  let v := pinCode s u t
  if (unit s u).comp then v * freeNat s 24 / 2 ^ 24 else v

/-- The series switch of unit `u` at instant `t`: it follows the frame at the pin, and a change between modes holds it
open, also one that failed (R76, R88, R91). -/
def pinOpen (s : Block) (u t : Nat) : Bool :=
  (unit s u).hid.isSome || match frameAt (unit s u).chain t with
    | some (f, _) => f.open'
    | none => true

/-- Unit `u` is in PARK at the pin at instant `t`, in FAULT with its switch open under FAULT_PARK it is not (R76). -/
def pinParked (s : Block) (u t : Nat) : Bool :=
  (unit s u).hid.isSome || match frameAt (unit s u).chain t with
    | some (f, _) => f.park
    | none => true

/-- The resistance in MΩ from each force pin to AGND in PARK (Table 04-1). -/
def parkMOhm (s : Block) (u t : Nat) : Option Nat := if pinParked s u t then some 1 else none

/-- The word of BRIDGE that acts at instant `t`: that of the frame at the pin, in the ratiometric range in every state but
PARK; else no field acts (R74). -/
def bridgeAt (s : Block) (u t : Nat) : Word :=
  if isRatio u (getF s (uF u F.P_RANGE_ACT)) && !pinParked s u t then
    match frameAt (unit s u).chain t with
    | some (f, _) => f.brg
    | none => 0
  else 0

/-- A field of the acting word of BRIDGE. -/
def bridgeF (s : Block) (u t : Nat) (f : Fld) : Nat := bits (bridgeAt s u t) f.hi f.lo

/-- The source resistance in each leg in Ω (R71). -/
def legOhm (s : Block) (u t : Nat) : Nat :=
  match bridgeF s u t F.P_BRIDGE_ZSRC with
  | 1 => 175
  | 2 => 500
  | _ => 0

/-- The pin of unit `u` floats: its series switch is open, for both pins or by an open-signal fault for OP (3) or ON (4)
(R73, R76). -/
def pinFloats (s : Block) (u t fault : Nat) : Bool :=
  pinOpen s u t || bridgeF s u t F.P_BRIDGE_BFAULT == fault

/-- The resistance in Ω from XSP (fault 1) to EXP or from XSN (fault 2) to EXN; none: high impedance (R59, R72, R73, R76). -/
def senseLine (s : Block) (u t fault : Nat) : Option Nat :=
  if isRatio u (getF s (uF u F.P_RANGE_ACT)) && !pinParked s u t && bridgeF s u t F.P_BRIDGE_BFAULT != fault then
    some (5 * bridgeF s u t F.P_BRIDGE_RSENSE)
  else none

/-- The leakage from OP to AGND in MΩ (R73). -/
def leakMOhm (s : Block) (u t : Nat) : Option Nat :=
  if bridgeF s u t F.P_BRIDGE_BFAULT = 5 then some (10 ^ bridgeF s u t F.P_BRIDGE_LEAK) else none

/-- The unit regulates at its internal point: a simulated source, or an open-signal fault; the sense check is suspended
(R71, R73). -/
def senseOff (s : Block) (u : Nat) : Bool :=
  let f := bridgeF s u s.sysTime F.P_BRIDGE_BFAULT
  legOhm s u s.sysTime != 0 || f == 3 || f == 4

/-- The unit regulates at its own pins: CTRL.SENSE, or a lost sense line (R49, Table 02-4). -/
def senseLocal (s : Block) (u : Nat) : Bool := flag s (uF u F.P_CTRL_SENSE) || (unit s u).senseInt

/-- The common mode in µV of OP and ON: the excitation's midpoint within ±5.0 V, else AGND (R63, Table 02-4). -/
def commonMode (x : ExcSample) : Int := clampI (-5000000) 5000000 ((x.vp + x.vn) / 2)

/-- The clamp of the common mode acts (R63). -/
def cmClamped (x : ExcSample) : Bool := decide (10000000 < x.vp + x.vn) || decide (x.vp + x.vn < -10000000)

end Sys2Proof.Machine
end

