-- ==== Sys2Proof/Machine/Strobes.lean ====
section
/-! DEFINITION. Update groups (R31, R322, R323) and the events that sequencers take (R130, R133, R137,
R145). -/

namespace Sys2Proof.Machine

/-! ## What a strobe copies -/

/-- The buffered words of a register block at `base`, as their shadows stand. -/
def bufWords (s : Block) (base : Nat) (regs : List RegDef) : List (Nat × Nat × Nat) :=
  (regs.filter (fun d => d.buf != 0)).map (fun d => (base + d.off, (getP s (base + d.off)).toNat, d.buf))

/-- The units and lane clusters that have buffered fields. -/
def bufUnits : List Nat := List.range 64 ++ (List.range 8).map (· + 96)

/-- The update group of unit or lane cluster `u`, as last written: its writes reach the unit in order, before a strobe
taken after them (R314, R323). -/
def ugOf (s : Block) (u : Nat) : Nat := getPF s (uF u (if u < 96 then F.P_CTRL_UG else F.LC_CTRL_UG))

/-- A strobe on group `ug` acts on unit or lane cluster `u`: it is of that group, or a write of CTRL.UG took it out of
the group in this very cycle (R57). -/
def ugActs (s : Block) (ug u : Nat) : Bool :=
  ugOf s u == ug || match writtenNow s (unitBase u) with
    | some w => bits w 27 24 == ug
    | none => false

/-- Every shadow of unit or lane cluster `u`. -/
def unitShadows (s : Block) (u : Nat) : List (Nat × Nat × Nat) :=
  if u < 48 then bufWords s (unitBase u) regsP ++ bufWords s (brgBase u) regsBrg
  else if u < 64 then bufWords s (unitBase u) regsD
  else bufWords s (unitBase u) regsLc

/-- One strobe's words put in force; a commit strobe writes the shadow too (R295), but for one that a host has written in
this very cycle, whose word stays there for the next strobe (Table 14-2). The EDGE and FILT of the input lanes that it
changes judge an edge of this cycle as they were (Table 08-4). -/
def putStrobe (s : Block) (st : Strobe) : Block :=
  forEach st.words s (fun s w =>
    if st.ug.isSome || (twoFold w.1 && (writtenNow s w.1).isSome) then
      unflip (putA s w.1 w.2.2 w.2.1) w.1 w.2.2 false
    else
      let s := if w.1 = unitBase 103 + R.LC_INCFG then noteWrite s w.1 else s
      unflip (unflip (putM s w.1 w.2.2 w.2.1) w.1 w.2.2 false) w.1 w.2.2 true)

/-- The key of the strobe `t` that applies at boundary `b`. -/
def strobeKey (t : Strobe) (b : Nat) : StrobeKey := (t.ug.elim 0 (· + 1), t.due, b)

/-- The strobes that apply to `u` at boundary `b` (R295, R323); a P or D unit keeps which one was the last (R92). -/
def applyStrobes (s : Block) (u b : Nat) : Block :=
  let due := s.strobes.filter (fun t => t.tgt == u && decide (t.due ≤ b))
  let s := { s with strobes := s.strobes.filter (fun t => !(t.tgt == u && decide (t.due ≤ b))) }
  let s := forEach due s putStrobe
  match due.getLast? with
  | none => s
  | some t =>
    if u < 64 then syncLatency (setUnit s u { unit s u with lastStrobe := some (strobeKey t b) }) u
    else syncLaneLat s

/-! ## Sequencer times -/

/-- The boundary of frame `f` of sequencer `n`. -/
def bt (s : Block) (n f : Nat) : Nat := (seqr s n).t0 + f * groupT (group s n)

/-- The frame that contains instant `e`. -/
def frameOfTime (s : Block) (n e : Nat) : Nat := (e - (seqr s n).t0) / groupT (group s n)

/-- The first frame whose boundary lies at or after `t`. -/
def frameFrom (s : Block) (n t : Nat) : Nat :=
  let p := groupT (group s n)
  (t - (seqr s n).t0 + p - 1) / p

/-- b of R136, counted from `s0` for an event in frame `x`. -/
def granuleB (s0 x : Nat) : Nat := s0 + 64 * ((x - s0 + 64 + 63) / 64)

/-- The decision frame d of the pass (R120). -/
def decisionFrame (q : SeqSt) : Nat := q.s + q.len - 64

/-- A sequencer plays a pass or the replay of one; before frame 0 it counts as in its first pass. -/
def inPass (q : SeqSt) : Bool := q.mode == 0 || q.mode == 1 || q.mode == 2

/-! ## Steps (Table 06-1) -/

/-- Step `i` of the step table. -/
def stepAt (s : Block) (i : Nat) : Nat := Tbl.get (fun _ => 0) s.mem.steps i

def stSeg (w : Nat) : Nat := natBits w 15 0
def stLoop (w : Nat) : Nat := natBits w 35 16
def stNext (w : Nat) : Nat := natBits w 55 36
def stJtgt (w : Nat) : Nat := natBits w 75 56
def stAmp (w : Nat) : Int := signed 18 (natBits w 93 76)
def stMov (w k : Nat) : Nat := natBits w (95 + 2 * k) (94 + 2 * k)
def stCidx (w : Nat) : Nat := natBits w 109 102
def stUg (w : Nat) : Nat := natBits w 113 110
def stUgen (w : Nat) : Bool := w.testBit 114
def stJin (w : Nat) : Nat := natBits w 116 115
def stJen (w : Nat) : Bool := w.testBit 117
def stGran (w : Nat) : Bool := w.testBit 118
def stJgate (w : Nat) : Bool := w.testBit 119
def stGsrc (w : Nat) : Nat := natBits w 121 120
def stEarly (w : Nat) : Bool := w.testBit 122
def stGidle (w : Nat) : Bool := w.testBit 123
def stEnd (w : Nat) : Bool := w.testBit 124

/-- A reserved encoding or a non-zero reserved bit (R126). -/
def stBad (w : Nat) : Bool := natBits w 127 125 != 0 || stGsrc w == 3

/-- The step that holds the present frame: the start step before frame 0. -/
def curStep (s : Block) (n : Nat) : Nat :=
  if (seqr s n).mode = 0 then getF s (qF n F.SEQ_START_STEP) else getF s (qF n F.SEQ_CUR_STEP)

/-- The segment that step `i` would play next: its own, or the next member of its ring. -/
def stepSegment (s : Block) (i : Nat) : Nat :=
  let g := stSeg (stepAt s i)
  if (seg s g).st = 7 then
    let r := ringOf s g
    r.members.getD r.next 0
  else g

/-- The ring read of step `i` finds its next member STREAM_EMPTY (R120). -/
def stepEmpty (s : Block) (i : Nat) : Bool :=
  (seg s (stSeg (stepAt s i))).st == 7 && (seg s (stepSegment s i)).st == 4

/-! ## Starts (R130, Table 06-8) -/

/-- Sequencer `n` takes a start at edge `e`: it runs, and frame 0 is the first frame of the grid at or after
e + 5,000 ns. A start in IDLE or ARMING is dropped with SOVR, as Table 06-8 has it in RUNNING, STOPPED and ENDED: for
those two states the spec is silent (DESIGN CHOICE, log entry 26). -/
def takeStart (s : Block) (n e : Nat) : Block :=
  let q := seqr s n
  let st := getF s (qF n F.SEQ_STATE_SSTATE)
  if st = 2 then
    let t := groupT (group s n)
    let b := ceilTo (e + 5000) t
    let s := setSeq s n { q with startAt := some b, startE := e, t0 := b }
    syncLevels (setF s (qF n F.SEQ_STATE_SSTATE) 3)
  else if st = 3 && q.startE = e then s
  else raise s (qF n F.SEQ_STATUS_SOVR)

/-- A START event or strobe: dropped where the mode refuses starts (Table 16-1). -/
def startEvent (s : Block) (n e : Nat) : Block :=
  if [0, 1, 4, 5].contains (modeOf s) then raise s (qF n F.SEQ_STATUS_SOVR) else takeStart s n e

/-! ## Stops (R145) -/

/-- The edge `e` lies in a frame of running sequencer `n` that has not begun: what is taken at it is judged once it has
(R133). -/
def inLaterFrame (s : Block) (n e : Nat) : Bool :=
  getF s (qF n F.SEQ_STATE_SSTATE) == 3 && decide (bt s n (seqr s n).frame ≤ e)

/-- An event kept until its frame begins. -/
def keepEvent (s : Block) (n : Nat) (v : SeqEvent) : Block :=
  let q := seqr s n
  setSeq s n { q with evq := q.evq ++ [v] }

/-- A stop of running sequencer `n` taken at edge `e` under `mode`, with its cause, the hop count of the sequence end and
whether it disarms. One stop already taken stands where it acts earlier; both then disarm as either asks. -/
def stopTaken (s : Block) (n e mode cause hop : Nat) (dis : Bool) : Block :=
  let q := seqr s n
  if getF s (qF n F.SEQ_STATE_SSTATE) != 3 then raise s (qF n F.SEQ_STATUS_POVR)
  else
    let x := frameOfTime s n e
    let at' := if mode = 1 && inPass q then
        (if x ≤ decisionFrame q then some (q.s + q.len) else none)
      else if mode = 2 && inPass q then some (granuleB q.s x)
      else some (frameFrom s n (e + 5000))
    let new : SeqStop := ⟨mode == 1 && inPass q, at', cause, hop, dis⟩
    let stop := match q.stop with
      | none => new
      | some o =>
        let earlier := match at', o.frame with
          | some a, some b => decide (a < b)
          | some _, none => true
          | none, _ => false
        if earlier then { new with disarm := dis || o.disarm } else { o with disarm := dis || o.disarm }
    setSeq s n { q with stop := some stop }

/-- A stop of sequencer `n` at edge `e` (R145, Table 06-8). -/
def stopEvent (s : Block) (n e mode cause hop : Nat) (dis : Bool) : Block :=
  let q := seqr s n
  let st := getF s (qF n F.SEQ_STATE_SSTATE)
  let now := { q with stop := some ⟨false, none, cause, hop, dis⟩ }
  if st = 2 then seqEnd (setSeq s n now) n 4 cause hop
  else if st != 3 then raise s (qF n F.SEQ_STATUS_POVR)
  else if !q.played && q.startE = e then seqEnd (setSeq (raise s (qF n F.SEQ_STATUS_SOVR)) n now) n 4 cause hop
  else if inLaterFrame s n e && q.played then keepEvent s n (.stop e mode cause hop dis)
  else stopTaken s n e mode cause hop dis

/-! ## Jumps (R133, R136) -/

/-- An event on jump input `k` taken at edge `e` in a frame that has begun, whether a SEQ_JUMP made it, and the hop count
of what would follow it: the state, and whether the latch is set. For an AT_GRANULE step the member of a ring target is
read now, and the pass is cut at the first b that a latch asks for (R136). Where a router event and a SEQ_JUMP at one edge
count as one, the hop count kept is that of whichever came first: the spec does not say which counts (DESIGN CHOICE, log
entry 26). -/
def jumpTaken (s : Block) (n k e : Nat) (cmd : Bool) (hop : Nat) : Block × Bool :=
  let q := seqr s n
  let i := curStep s n
  let w := stepAt s i
  if getF s (qF n F.SEQ_STATE_SSTATE) != 3 || !stJen w || stJin w != k then
    (raise s (qF n F.SEQ_STATUS_JUMP_IGNORED), false)
  else
    match q.latches.find? (fun l => l.1 == k) with
    | some l =>
      if l.2.edge = e && l.2.cmd != cmd then (s, true) else (raise s (qF n F.SEQ_STATUS_JOVR), false)
    | none =>
      let x := frameOfTime s n e
      let pass := q.mode == 0 || q.mode == 1
      let gran := stGran w && pass
      let l : JumpLatch := ⟨i, x, e, cmd, hop, !gran && (!pass || decide (decisionFrame q < x)),
        gran && stepEmpty s (stJtgt w)⟩
      let b := granuleB q.s x
      let q := { q with latches := Tbl.insert k l q.latches,
                        cut := if gran then some (q.cut.elim b (min b)) else q.cut }
      (syncSeq (setSeq s n q) n, true)

/-- An event on jump input `k` at edge `e`: the state, and whether the latch is set; none where the event is judged
later. -/
def jumpEvent (s : Block) (n k e : Nat) (cmd : Bool) (hop : Nat) : Block × Option Bool :=
  if inLaterFrame s n e && (seqr s n).played then (keepEvent s n (.jump k e cmd hop), none)
  else
    let r := jumpTaken s n k e cmd hop
    (r.1, some r.2)

/-! ## Gates (R137, R138) -/

/-- A GATE event taken at edge `e` in a frame that has begun. One taken while the step has a level gate, or outside RUNNING,
is dropped with GATE_DROP: the spec does not say which flag it sets (DESIGN CHOICE, log entry 26). -/
def gateTaken (s : Block) (n e : Nat) : Block :=
  let q := seqr s n
  let w := stepAt s (curStep s n)
  if getF s (qF n F.SEQ_STATE_SSTATE) != 3 || stGsrc w != 1 then raise s (qF n F.SEQ_STATUS_GATE_DROP)
  else if q.gateLat.isSome then raise s (qF n F.SEQ_STATUS_GOVR)
  else if q.mode = 3 || q.mode = 4 then
    if q.release.isSome then raise s (qF n F.SEQ_STATUS_GOVR)
    else setSeq s n { q with release := some (max q.waitFrom (frameFrom s n (e + 5000))), relEdge := e }
  else if stEarly w then syncSeq (setSeq s n { q with gateLat := some e }) n
  else raise s (qF n F.SEQ_STATUS_GATE_DROP)

/-- A GATE event at edge `e`. -/
def gateEvent (s : Block) (n e : Nat) : Block :=
  if inLaterFrame s n e && (seqr s n).played then keepEvent s n (.gate e) else gateTaken s n e

/-- The waiting SEQ_JUMP of input `k` of sequencer `n` at edge `e` completes. -/
def jumpDone (s : Block) (n k e : Nat) (taken : Bool) : Block :=
  match s.cmd.jobs.find? (fun j => j.op == Op.seqJump && pb j.p 1 3 0 == n && pb j.p 1 9 8 == k &&
      j.todo.headD 0 == e) with
  | some j => endJob s { j with result := b2n taken } Sts.ok 0
  | none => s

/-- One event that sequencer `n` kept is taken. -/
def takeEvent (n : Nat) (s : Block) (v : SeqEvent) : Block :=
  match v with
  | .jump k e cmd hop =>
    let r := jumpTaken s n k e cmd hop
    if cmd then jumpDone r.1 n k e r.2 else r.1
  | .gate e => gateTaken s n e
  | .stop e mode cause hop dis => stopTaken s n e mode cause hop dis

/-- The edge of an event. -/
def eventEdge (v : SeqEvent) : Nat :=
  match v with
  | .jump _ e _ _ => e
  | .gate e => e
  | .stop e _ _ _ _ => e

/-- A frame of sequencer `n` has begun: the events whose edges lie in it are taken, in order. -/
def takeEvents (s : Block) (n : Nat) : Block :=
  let q := seqr s n
  let b := bt s n q.frame
  forEach (q.evq.filter (fun v => decide (eventEdge v < b)))
    (setSeq s n { q with evq := q.evq.filter (fun v => decide (b ≤ eventEdge v)) }) (takeEvent n)

/-! ## Strobes (R323, R144) -/

/-- The words that the strobe on `ug` taken at edge `e` copies at unit or lane cluster `u`: its shadows as they stand, less
what a host has written in the very cycle of `e` (Table 14-2). -/
def strobeWords (s : Block) (e u : Nat) : List (Nat × Nat × Nat) :=
  (unitShadows s u).map (fun w =>
    if s.sysTime < e then w else (w.1, ((writtenNow s w.1).getD (Word.ofNat w.2.1)).toNat, w.2.2))

/-- The strobe on UG`ug` taken at edge `e` put down for every unit of the group, to apply at its first frame boundary at or
after `due`; one that meets another of the group at one boundary counts as merged. -/
def placeStrobe (s : Block) (ug e due : Nat) : Block :=
  let us := bufUnits.filter (ugActs s ug)
  let same := fun (t : Strobe) => t.ug == some ug && us.contains t.tgt &&
    boundary s t.tgt t.due == boundary s t.tgt due
  let new := us.map (fun u => (⟨u, due, some ug, strobeWords s e u, e⟩ : Strobe))
  let s := if s.strobes.any same then incF s F.GLOBAL_UG_MERGED_COUNT else s
  let syn := us.flatMap (fun u => [unitBase u + R.P_SYN_FREQ_LO, unitBase u + R.P_SYN_FREQ_HI, unitBase u + R.P_SYN_PHASE])
  let held := fun (a : Nat) => decide (e ≤ s.sysTime) && (writtenNow s a).isSome
  let s := { s with hostIf := { s.hostIf with
    synNew := s.hostIf.synNew.filter (fun a => !syn.contains a || held a) } }
  { s with strobes := s.strobes.filter (fun t => !same t) ++ new }

/-- UG_PEND after strobe on UG`ug` is taken at edge `e`: cleared at that edge, a shadow written in its very cycle still
pending (Table 14-2). -/
def pendTaken (s : Block) (ug e : Nat) : Block :=
  let now := (bufUnits.filter (fun u => ugOf s u == ug)).any (fun u =>
    (unitShadows s u).any (fun w => (writtenNow s w.1).isSome))
  if s.sysTime < e then { s with hostIf := { s.hostIf with ugClr := s.hostIf.ugClr ++ [(ug, e)] } }
  else if now then s
  else setF s ⟨R.GLOBAL_UG_PEND, ug, ug⟩ 0

/-- A shadow of unit or lane cluster `u` has been written before the edge of a strobe already recorded: the strobe copies
it as it stands at that edge (R323). -/
def refreshStrobes (s : Block) (u : Nat) : Block :=
  let g := ugOf s u
  let mine := fun (t : Strobe) => t.tgt == u && t.ug == some g && decide (s.sysTime < t.edge)
  if s.strobes.any mine then
    let base := unitBase u
    let syn := [base + R.P_SYN_FREQ_LO, base + R.P_SYN_FREQ_HI, base + R.P_SYN_PHASE]
    { s with
      strobes := s.strobes.map (fun t => if mine t then { t with words := unitShadows s u } else t)
      hostIf := { s.hostIf with synNew := s.hostIf.synNew.filter (fun a => !syn.contains a) } }
  else s

/-- The edges of strobes that have come clear UG_PEND (R323). -/
def pendEdges (s : Block) : Block :=
  let due := s.hostIf.ugClr.filter (fun p => decide (p.2 ≤ s.sysTime))
  if due.isEmpty then s
  else
    let h := s.hostIf
    forEach due { s with hostIf := { h with ugClr := h.ugClr.filter (fun p => decide (s.sysTime < p.2)) } }
      (fun s p => setF s ⟨R.GLOBAL_UG_PEND, p.1, p.1⟩ 0)

/-- The words of a commit strobe on an acquisition unit, whose edge has come (R295). -/
def commitEdge (s : Block) (t : Strobe) : Block :=
  let old := (getW s (unitBase t.tgt + R.A_CTRL)).toNat
  aCtrlChanged (putStrobe s t) (t.tgt - 64) old

/-- The commit strobes of acquisition units whose edges have come are applied. -/
def commitEdges (s : Block) : Block :=
  let due := fun (t : Strobe) => decide (64 ≤ t.tgt) && decide (t.tgt < 96) && decide (t.due ≤ s.sysTime)
  forEach (s.strobes.filter due) { s with strobes := s.strobes.filter (fun t => !due t) } commitEdge

/-- A strobe on UG`ug` taken at edge `e` from source `src` (Table 14-6), applied by each unit at its first
frame boundary at or after `due`. Two strobes on one group at one edge are one strobe, applied where the earlier of the two
has it: a step's at the frame of its entry, with or without an UPDATE beside it (Table 06-8). -/
def takeStrobe (s : Block) (ug e due src : Nat) : Block :=
  if Tbl.get (fun _ => 0) s.hostIf.lastUg ug = e + 1 then
    let mine := fun (t : Strobe) => t.ug == some ug && t.due == e + 4000
    if due < e + 4000 && s.strobes.any mine then
      { s with strobes := s.strobes.map (fun t => if mine t then { t with due := due } else t) }
    else s
  else
    let s := placeStrobe s ug e due
    let lst := Tbl.set (fun _ => 0) s.hostIf.lastUg ug (e + 1)
    let s := { s with hostIf := { s.hostIf with lastUg := lst } }
    let s := setF (setF s F.GLOBAL_UG_LAST_VALID 1) F.GLOBAL_UG_LAST_SRC src
    let s := setF s F.GLOBAL_UG_LAST_UG ug
    let s := incF s (F.GLOBAL_UG_COUNT0_COUNT.at (4 * ug))
    let s := pendTaken s ug e
    forEach (List.range 16) s (fun s n =>
      if flag s (qF n F.SEQ_CTRL_START_UGEN) && getF s (qF n F.SEQ_CTRL_START_UG) == ug then
        startEvent s n e
      else s)

end Sys2Proof.Machine
end

