-- ==== Sys2Proof/Machine/Groups.lean ====
section
/-! DEFINITION. GROUP_DEFINE (R11 to R14), and what follows the definition of a group (R16, R56, R173). -/

namespace Sys2Proof.Machine

/-- Every latency register follows the groups. -/
def syncLatencies (s : Block) : Block := syncLaneLat (forEach (List.range 64) s unitLatency)

/-- The membership fields of `u`. -/
def setMember (s : Block) (u : Nat) (g : Option Nat) : Block :=
  let i := if u < 96 then uF u F.P_STATE_IN_GROUP else uF u F.LC_STATE_IN_GROUP
  let f := if u < 96 then uF u F.P_STATE_GROUP else uF u F.LC_STATE_GROUP
  setF (setB s i g.isSome) f (g.getD 0)

/-- A definition's members. -/
def groupMembers (g : Group) : List Nat := bitList g.mask 64 ++ (bitList g.lcmask 8).map (· + 96)

/-- Some cluster would have members at two frame rates (R13): a unit of another group shares a named unit's
analogue cluster at another frame period. -/
def twoRates (s : Block) (n : Nat) (g : Group) : Bool :=
  (bitList g.mask 64).any (fun u => (clusterUnits (clusterOf u)).any (fun v =>
    match groupOf s v with
    | some k => k != n && groupT (group s k) != groupT g
    | none => false))

/-- A cluster that leaves its group is IDLE from the next bit boundary, whatever bits of the group are still on their way
(Table 08-4). -/
def laneLeave (s : Block) (u : Nat) : Block :=
  let c := u - 96
  let st := getF s (lF c F.LC_STATE_CSTATE)
  let late := (lane s c).pipe.any (fun p => p.st == 2 || p.st == 3)
  if u < 96 || !(st = 2 || st = 3 || (st = 1 && late)) then s
  else
    let s := setF s (lF c F.LC_STATE_CSTATE) 1
    let s := setLane s c { lane s c with byte := 0 }
    laneCut s c (nextBit s.sysTime) { st := 1, cfg := laneCfg s c }

/-- RATE of sequencer `n` (Table 06-15). -/
def setRate (s : Block) (n : Nat) (g : Group) : Block :=
  if g.defined then
    let t := groupT g
    let s := setF s (qF n F.SEQ_RATE_RLEAD) ((5000 + t - 1) / t)
    setF (setB s (qF n F.SEQ_RATE_LANE) g.lane) (qF n F.SEQ_RATE_DIV) g.div
  else setF (setF (setF s (qF n F.SEQ_RATE_RLEAD) 0) (qF n F.SEQ_RATE_LANE) 0) (qF n F.SEQ_RATE_DIV) 0

/-- Group `n` takes definition `g`. -/
def defineGroup (s : Block) (n : Nat) (g : Group) : Block :=
  let old := groupMembers (group s n)
  let new := groupMembers g
  let gone := old.filter (fun u => !new.contains u)
  let s := setGroup s n g
  let s := forEach gone s (fun s u => laneLeave (setMember s u none) u)
  let s := forEach new s (fun s u => setMember s u (some n))
  syncLatencies (setRate s n g)

/-- GROUP_DEFINE's checks, in the order of R14, and its effect. -/
def groupDefineBody (s : Block) (p : List Word) : CmdRes :=
  let n := pb p 1 3 0
  let isLane := pb p 1 8 8 = 1
  let div := pb p 2 16 0
  let mask := pw64 p 3
  let lcm := pb p 5 7 0
  let empty := mask = 0 && lcm = 0
  let g : Group := if empty then {} else
    { defined := true, lane := decide isLane, div := div, mask := mask, lcmask := lcm }
  let new := groupMembers g
  let gone := (groupMembers (group s n)).filter (fun u => !new.contains u)
  notInBoot s <|
    if !empty && (div = 0 || decide ((if isLane then 65536 else 4096) < div) ||
        (decide isLane && mask != 0)) then .fail s Sts.badParam
    else if getF s (qF n F.SEQ_STATE_SSTATE) != 0 then .fail s Sts.state
    else if new.any (fun u => match groupOf s u with
        | some k => k != n
        | none => false) then .fail s Sts.state
    else if twoRates s n g || new.any (calNamed s) then .fail s Sts.state
    else if gone.any (fun u => decide (u < 96) && !(ostate s u == 0 || ostate s u == 1)) then
      .fail s Sts.state
    else .okay (defineGroup s n g)

/-- GROUP_DEFINE (0x20). -/
def effGroupDefine (h : Hdr) (p : List Word) (s : Block) : Out :=
  runCmd s h 0x20 p [] (· == 6) [0x10F, 0x1FFFF, 0xFFFFFFFF, 0xFFFFFFFF, 0xFF] groupDefineBody

/-! ## The meanings -/

/-- GROUP_DEFINE (0x20), done to the block; the queue stays. -/
def execGroupDefine (h : Hdr) (p : List Word) (s : State) : Host.Outcome State Fault Refusal :=
  onBlock s (effGroupDefine h p)

end Sys2Proof.Machine
end

