-- ==== Sys2Proof/Machine/Synth.lean ====
section
/-! DEFINITION. Unit synthesis and CARVE (R151 to R162). -/

namespace Sys2Proof.Machine

/-! ## Tables -/

/-- A word written at byte address `a` of the table banks. -/
def putTable (s : Block) (a v : Nat) : Block :=
  { s with tables := Tbl.set (fun _ => (0 : Word)) s.tables a (Word.ofNat v) }

/-- Where entry `i` of a die's sine bank lies (R164). -/
def sineAddr (die bank i : Nat) : Nat := 0x100000 + die * 0x20000 + bank * 0x10000 + 4 * i

/-- Entry `i` of a sine bank as it is stored. -/
def sineStored (s : Block) (die bank i : Nat) : Int :=
  signed 24 (tableWord s (sineAddr die bank (i % 16384)))

/-- The SRAM block of entry `i` of a sine bank, where more than one of the entry's bits is wrong. -/
def sineUe (s : Block) (die bank i : Nat) : Option Nat :=
  (s.tableUe.find? (fun x => x.1 == die && x.2.1 == bank && x.2.2.1 == i % 16384)).map (fun x => x.2.2.2)

/-- Entry `i` of a sine bank as it reads: an uncorrectable word as the mean of its neighbours (R155). -/
def sineEntry (s : Block) (die bank i : Nat) : Int :=
  if (sineUe s die bank i).isSome then
    divEven (sineStored s die bank (i + 16383) + sineStored s die bank (i + 1)) 2
  else sineStored s die bank i

/-- Action `slot` of CARVE command `i` (Table 07-2). -/
def carveAction (s : Block) (i slot : Nat) : Nat :=
  tableWord s (0x200000 + i * 0x40 + slot * 8) +
    tableWord s (0x200000 + i * 0x40 + slot * 8 + 4) * 2 ^ 32

/-- The synthesis record of die `d`. -/
def dieF (d : Nat) (f : Fld) : Fld := f.at (adieAdr d 0x60000)

/-- A field of unit `u`'s slot of the synthesis record. -/
def synF (u : Nat) (f : Fld) : Fld := f.at (synBase u)

/-- The units of die `d`. -/
def dieUnits (d : Nat) : List Nat :=
  (List.range 24).map (· + 24 * d) ++ (List.range 8).map (· + 48 + 8 * d)

/-! ## Noise (R156) -/

/-- One shift of x^63 + x^62 + 1: the bit shifted out, and the register. -/
def lfsrShift (r : Nat) : Nat × Nat :=
  let o := natBits r 62 62
  (o, (r * 2) % 2 ^ 63 + (o + natBits r 61 61) % 2)

/-- `n` shifts: the bits as a number, most significant first, and the register. -/
def lfsrRun : Nat → Nat → Nat → Nat × Nat
  | 0, acc, r => (acc, r)
  | n + 1, acc, r => let x := lfsrShift r; lfsrRun n (2 * acc + x.1) x.2

/-- W of the noise waveform and the register after the frame's shifts. -/
def noiseFrame (ndist r : Nat) : Int × Nat :=
  let u1 := lfsrRun 24 0 r
  if ndist = 0 then (signed 24 u1.1, u1.2)
  else
    let u2 := lfsrRun 24 0 u1.2
    let u3 := lfsrRun 24 0 u2.2
    let u4 := lfsrRun 24 0 u3.2
    ((signed 24 u1.1 + signed 24 u2.1 + signed 24 u3.1 + signed 24 u4.1) / 4, u4.2)

/-- The factory seed: bits 62:32 non-zero. -/
def factorySeed (u : Nat) : Nat :=
  let r := (Config.noiseSeed u).toNat
  (1 + (r / 2 ^ 32) % (2 ^ 31 - 1)) * 2 ^ 32 + r % 2 ^ 32

/-- The seed that SEQ_ARM loads. -/
def armSeed (u pofs : Nat) : Nat :=
  if pofs = 0 then factorySeed u else factorySeed u / 2 ^ 32 * 2 ^ 32 + pofs

/-- SEQ_ARM clears φ and loads the noise register (R152, R156). -/
def armSynth (s : Block) (u : Nat) : Block :=
  let pofs := getF s (uF u F.P_SYN_PHASE_POFS)
  let s := setUnit s u { unit s u with phi := 0, lfsr := armSeed u pofs }
  set64 s (synF u F.SYN_PHASE_LO_PHI) (synF u F.SYN_PHASE_HI_PHI) 0

/-! ## Waveforms (Table 07-1) -/

/-- θ of unit `u` (R152). -/
def theta (s : Block) (u : Nat) : Nat :=
  ((unit s u).phi / 2 ^ 16 + getF s (uF u F.P_SYN_PHASE_POFS)) % 2 ^ 32

/-- W of the sine table at θ. -/
def waveSine (s : Block) (die bank th : Nat) : Int :=
  let i := th / 2 ^ 18
  let r : Nat := th % 2 ^ 18
  let a := sineEntry s die bank i
  let b := sineEntry s die bank (i + 1)
  divEven (a * 2 ^ 18 + (b - a) * r) (2 ^ 18)

/-- W of the triangle at u = θ[31:8]. -/
def waveTriangle (u : Nat) : Int :=
  let w : Int := if u < 2 ^ 22 then 2 * u
    else if u < 3 * 2 ^ 22 then 2 ^ 24 - 2 * (u : Int) else 2 * (u : Int) - 2 ^ 25
  clampI (-(2 ^ 23 - 1)) (2 ^ 23 - 1) w

/-- W of the sawtooth. -/
def waveSaw (u : Nat) : Int := if u < 2 ^ 23 then u else (u : Int) - 2 ^ 24

/-- The synthesis component of unit `u` for the coming frame (R151). -/
def synValue (s : Block) (u : Nat) : Int :=
  let th := theta s u
  let w := match getF s (uF u F.P_SYN_WAVE) with
    | 1 => waveSine s (dieOf u) (unit s u).sbank th
    | 2 => waveTriangle (th / 256)
    | 3 => waveSaw (th / 256)
    | 4 => (noiseFrame (getF s (uF u F.P_SYN_NDIST)) (unit s u).lfsr).1
    | _ => 0
  divEven (w * getF s (uF u F.P_SYN_AMPL)) (2 ^ 20)

/-- The reads of the sine table for unit `u`'s frame: each uncorrectable word among them sets TBL_STAT.UE and is an event
of PATROL's class 0 (R155). -/
def sineReads (s : Block) (u : Nat) : Block :=
  if getF s (uF u F.P_SYN_WAVE) != 1 then s
  else
    let i := theta s u / 2 ^ 18
    let d := dieOf u
    forEach [i, i + 1] s (fun s k =>
      match sineUe s d (unit s u).sbank k with
      | some b => patrolEvent (raise s (dieF d F.SYN_TBL_STAT_UE)) 0 (0x80000000 + b)
      | none => s)

/-- SYN_FREQ in force. -/
def synInc (s : Block) (u : Nat) : Nat :=
  getF s (uF u F.P_SYN_FREQ_LO_INC) + getF s (uF u F.P_SYN_FREQ_HI_INC) * 2 ^ 32

/-- The frame's φ shown, and φ and the noise register advanced past the frame (R152, R156). -/
def advanceSynth (s : Block) (u : Nat) : Block :=
  let x := unit s u
  let s := set64 s (synF u F.SYN_PHASE_LO_PHI) (synF u F.SYN_PHASE_HI_PHI) x.phi
  setUnit s u { unit s u with
    phi := (x.phi + synInc s u) % 2 ^ 48,
    lfsr := (noiseFrame (getF s (uF u F.P_SYN_NDIST)) x.lfsr).2 }

/-! ## CARVE (R157 to R159) -/

/-- A CARVE action is well formed in `slot` of command `i`. -/
def carveActionOk (i slot a : Nat) : Bool :=
  let v := natBits a 47 0
  let un := natBits a 57 51
  natBits a 63 58 == 0 && (match natBits a 50 48 with
    | 0 => un == 0
    | 1 => decide (un < 64)
    | 2 => decide (un < 64)
    | 3 => decide (un < 64) && decide (v < 2 ^ 32)
    | 4 => decide (un < 64) && decide (v < 2 ^ 32)
    | 5 => un == 0 && slot == 7 && decide (v < 256) && decide (i < v)
    | _ => false)

/-- The command a command links to. -/
def carveLink (s : Block) (i : Nat) : Option Nat :=
  let a := carveAction s i 7
  if natBits a 50 48 = 5 then some (natBits a 7 0) else none

/-- The commands of the chain from `i`, at most `fuel` of them. -/
def carveChain (s : Block) : Nat → Nat → List Nat
  | 0, _ => []
  | k + 1, i =>
    match carveLink s i with
    | some j => i :: carveChain s k j
    | none => [i]

/-- No chain of the table exceeds 16 commands. -/
def chainsOk (s : Block) : Bool :=
  (List.range 256).all (fun i => i == 0 || decide ((carveChain s 17 i).length ≤ 16))

/-- The chain at `idx` read by sequencer `n`: each action waits for its unit's first boundary at or after
`due` (R159). -/
def carveRead (s : Block) (n idx due : Nat) : Block :=
  let acts := (carveChain s 16 idx).flatMap (fun i => (List.range 8).map (carveAction s i))
  forEach acts s (fun s a =>
    let op := natBits a 50 48
    if op = 0 || decide (4 < op) then s
    else
      let u := natBits a 57 51
      let x := unit s u
      setUnit s u { x with carveQ := x.carveQ ++ [(due, n, idx, op, natBits a 47 0)] })

/-- A CARVE writes the word at `a`, under `mask`: the active value, and the shadow, unless a host has written the shadow in
this very cycle (Table 07-4). A host's word that no strobe has taken is overwritten, and CV_OVR of unit `u` set (R159). -/
def carveWord (s : Block) (u a mask v : Nat) : Block :=
  if (writtenNow s a).isSome then putA s a mask v
  else
    let old := s.hostIf.synNew.contains a
    let s := putM s a mask v
    if old then
      raise { s with hostIf := { s.hostIf with synNew := s.hostIf.synNew.filter (fun b => b != a) } }
        (synF u F.SYN_CVSTAT_CV_OVR)
    else s

/-- INC of unit `u` made `v`, active and shadow (R159). -/
def carveInc (s : Block) (u v : Nat) : Block :=
  let s := carveWord s u (unitBase u + R.P_SYN_FREQ_LO) 0xFFFFFFFF v
  carveWord s u (unitBase u + R.P_SYN_FREQ_HI) 0xFFFF (v >>> 32)

/-- POFS of unit `u` made `v`. -/
def carvePofs (s : Block) (u v : Nat) : Block := carveWord s u (unitBase u + R.P_SYN_PHASE) 0xFFFFFFFF v

/-- One action applied to unit `u`. -/
def carveAct (s : Block) (u n idx op v : Nat) : Block :=
  let s := match op with
    | 1 => carveInc s u v
    | 2 => carveInc s u ((synInc s u + v) % 2 ^ 48)
    | 3 => carvePofs s u v
    | _ => carvePofs s u ((getF s (uF u F.P_SYN_PHASE_POFS) + v) % 2 ^ 32)
  let s := incF s (synF u F.SYN_CVSTAT_COUNT)
  let s := setF (setF s (synF u F.SYN_CVLAST_VALID) 1) (synF u F.SYN_CVLAST_SEQ) n
  setF s (synF u F.SYN_CVLAST_IDX) idx

/-- The actions due at boundary `b`, in ascending sequencer number and in chain order (Table 07-4); a strobe
of the same field at this boundary does not act. -/
def applyCarves (s : Block) (u b : Nat) : Block :=
  let x := unit s u
  let due := x.carveQ.filter (fun c => decide (c.1 ≤ b))
  let s := setUnit s u { x with carveQ := x.carveQ.filter (fun c => decide (b < c.1)) }
  let s := (List.range 16).foldl (fun s n =>
    forEach (due.filter (fun c => c.2.1 == n)) s (fun s c =>
      carveAct s u c.2.1 c.2.2.1 c.2.2.2.1 c.2.2.2.2)) s
  let inc := due.any (fun c => decide (c.2.2.2.1 ≤ 2))
  let pof := due.any (fun c => decide (3 ≤ c.2.2.2.1))
  let hit := fun (a : Nat) => (inc && (a == unitBase u + R.P_SYN_FREQ_LO ||
    a == unitBase u + R.P_SYN_FREQ_HI)) || (pof && a == unitBase u + R.P_SYN_PHASE)
  if due.isEmpty then s
  else
    let l := s.strobes.map (fun t => if t.tgt = u && t.due ≤ b then
      { t with words := t.words.filter (fun w => !hit w.1) } else t)
    { s with strobes := l }

/-! ## TABLE_LOAD (R160) -/

/-- The dies of TARGET. -/
def loadDies (tgt : Nat) : List Nat :=
  match tgt with
  | 0 => [0]
  | 1 => [1]
  | _ => [0, 1]

/-- A load or a swap is in progress on die `d`. -/
def dieBusy (s : Block) (d : Nat) : Bool :=
  flag s (dieF d F.SYN_TBL_STAT_LOAD_BUSY) || flag s (dieF d F.SYN_TBL_STAT_SWAP_PEND)

/-- CRC-32 of a bank as stored in the table-bank target. -/
def bankCrc (s : Block) (die bank : Nat) : Nat :=
  crc32 ((List.range 16384).flatMap (fun i => wordBytes (Word.ofNat
    (unsigned 32 (sineStored s die bank i)))))

/-- A sine load of the dies ends: the CRC of the bank as it stands, LOAD_BUSY clear. -/
def sineLoadEnd (s : Block) (dies : List Nat) : Block :=
  forEach dies s (fun s d =>
    let b := 1 - getF s (dieF d F.SYN_TBL_STAT_ABANK)
    let s := setF s (dieF d (if b = 0 then F.SYN_TBL_CRC_A_CRC else F.SYN_TBL_CRC_B_CRC))
      (bankCrc s d b)
    setF s (dieF d F.SYN_TBL_STAT_LOAD_BUSY) 0)

/-- The table word at `a` as it stands (R304). -/
def tableUndo (s : Block) (a : Nat) : Undo := .word a (Tbl.get (fun _ => (0 : Word)) s.tables a).toNat

/-- Entries `i` to `i + n − 1` of a load written, from its data. -/
def loadSome (s : Block) (p data : List Word) (i n : Nat) : Block :=
  let tgt := pb p 1 3 0
  let first := pb p 1 31 16
  if tgt = 3 then
    let s := noteUndo s ((List.range (16 * n)).map (fun k => tableUndo s (0x200000 + (first + i) * 0x40 + 4 * k)))
    forEach (List.range (16 * n)) s (fun s k =>
      putTable s (0x200000 + (first + i) * 0x40 + 4 * k) (data.getD (16 * i + k) 0).toNat)
  else
    forEach (loadDies tgt) s (fun s d =>
      let b := 1 - getF s (dieF d F.SYN_TBL_STAT_ABANK)
      let s := { s with tableUe := s.tableUe.filter (fun x =>
        !(x.1 == d && x.2.1 == b && decide (first + i ≤ x.2.2.1) && decide (x.2.2.1 < first + i + n))) }
      let s := noteUndo s ((List.range n).map (fun k => tableUndo s (sineAddr d b (first + i + k))))
      forEach (List.range n) s (fun s k =>
        putTable s (sineAddr d b (first + i + k)) (unsigned 32 (signed 24
          (data.getD (i + k) 0).toNat))))

/-- Entries or commands per step (Table 13-2). -/
def loadChunk (p : List Word) : Nat := if pb p 1 3 0 = 3 then 1 else 256

/-- The data words of a TABLE_LOAD, where the packet carries what COUNT asks. -/
def loadData (s : Block) (h : Hdr) (p d : List Word) : Option (List Word) :=
  let n := pb p 2 15 0 * (if pb p 1 3 0 = 3 then 16 else 1)
  if pb p 3 0 0 = 1 then
    if inWindow s h.ring || p.length != 5 then none
    else some ((d ++ List.replicate n 0).take n)
  else if p.length = 3 + n then some (p.drop 3) else none

/-- TABLE_LOAD breaks a BAD_PARAM rule of R160. -/
def loadBad (s : Block) (p data : List Word) : Bool :=
  let tgt := pb p 1 3 0
  let first := pb p 1 31 16
  let n := pb p 2 15 0
  if tgt < 3 then decide (16384 < first + n) || data.any (fun w => bits w 31 24 != 0)
  else if tgt = 3 then
    first == 0 || decide (256 < first + n) ||
      !((List.range (8 * n)).all (fun k =>
        carveActionOk (first + k / 8) (k % 8)
          ((data.getD (2 * k) 0).toNat + (data.getD (2 * k + 1) 0).toNat * 2 ^ 32))) ||
      !chainsOk (loadSome s p data 0 n)
  else true

/-- TABLE_LOAD's checks and first step. -/
def tableLoadBody (h : Hdr) (d : List Word) (s : Block) (p : List Word) : CmdRes :=
  let n := pb p 2 15 0
  let tgt := pb p 1 3 0
  notInBoot s <|
    match loadData s h p d with
    | none => .fail s Sts.badParam
    | some data =>
      if n = 0 || loadBad s p data then .fail s Sts.badParam
      else if decide (tgt < 3) && (loadDies tgt).any (dieBusy s) then .fail s Sts.busy
      else
        let c := min n (loadChunk p)
        let s := if tgt < 3 then
            forEach (loadDies tgt) s (fun s d => setF s (dieF d F.SYN_TBL_STAT_LOAD_BUSY) 1)
          else s
        let s := loadSome s p data 0 c
        if c = n then
          .done (if tgt < 3 then sineLoadEnd s (loadDies tgt) else s) Sts.ok 0 c 0
        else .more s c 0 (c :: data.map (fun w => w.toNat))

/-- TABLE_LOAD (0x34). -/
def effTableLoad (h : Hdr) (p d : List Word) (s : Block) : Out :=
  runCmd s h 0x34 p d (fun n => decide (4 ≤ n)) [0xFFFF000F, 0xFFFF, 1] (tableLoadBody h d)

/-- A later step of TABLE_LOAD. -/
def loadContinue (s : Block) (j : Job) : Block :=
  let i := j.todo.headD 0
  let n := pb j.p 2 15 0
  let data := (j.todo.drop 1).map Word.ofNat
  let c := min (n - i) (loadChunk j.p)
  let s := loadSome s j.p data i c
  let k := { j with steps := i + c, todo := (i + c) :: j.todo.drop 1 }
  if i + c < n then { s with cmd := { s.cmd with jobs := s.cmd.jobs.map (fun x => if x = j then k else x) } }
  else
    let s := if pb j.p 1 3 0 < 3 then sineLoadEnd s (loadDies (pb j.p 1 3 0)) else s
    endJob s k Sts.ok 0

/-! ## TABLE_SWAP (R161) -/

/-- TABLE_SWAP's checks and effect: every unit of the named dies changes bank at its next boundary. -/
def tableSwapBody (s : Block) (p : List Word) : CmdRes :=
  let dies := bitList (pb p 1 1 0) 2
  notInBoot s <|
    if dies.isEmpty then .fail s Sts.badParam
    else if dies.any (dieBusy s) then .fail s Sts.busy
    else
      let s := forEach dies s (fun s d =>
        let s := setF s (dieF d F.SYN_TBL_STAT_SWAP_PEND) 1
        forEach (dieUnits d) s (fun s u => setUnit s u { unit s u with sineDue := some (s.sysTime + 1) }))
      .wait s [0] 0 0

/-- TABLE_SWAP (0x35). -/
def effTableSwap (h : Hdr) (p : List Word) (s : Block) : Out :=
  runCmd s h 0x35 p [] (· == 2) [3] tableSwapBody

/-- Unit `u` changes sine bank at boundary `b`; with the last unit of the die the swap is done. -/
def applySineSwap (s : Block) (u b : Nat) : Block :=
  let x := unit s u
  match x.sineDue with
  | none => s
  | some d =>
    if b < d then s
    else
      let s := setUnit s u { x with sineDue := none, sbank := 1 - x.sbank }
      let die := dieOf u
      if (dieUnits die).all (fun v => (unit s v).sineDue.isNone) then
        let a := dieF die F.SYN_TBL_STAT_ABANK
        let s := setF s a (1 - getF s a)
        setF (incF s (dieF die F.SYN_TBL_STAT_SWAPS)) (dieF die F.SYN_TBL_STAT_SWAP_PEND) 0
      else s

/-- A waiting TABLE_SWAP ends when SWAP_PEND has cleared on every named die. -/
def settleSwap (s : Block) (j : Job) : Block :=
  if (bitList (pb j.p 1 1 0) 2).all (fun d => !flag s (dieF d F.SYN_TBL_STAT_SWAP_PEND)) then
    endJob s j Sts.ok 0
  else s

/-! ## The meanings -/

/-- TABLE_LOAD (0x34), done to the block; the queue stays. -/
def execTableLoad (h : Hdr) (p d : List Word) (s : State) : Host.Outcome State Fault Refusal :=
  onBlock s (effTableLoad h p d)

/-- TABLE_SWAP (0x35), done to the block; the queue stays. -/
def execTableSwap (h : Hdr) (p : List Word) (s : State) : Host.Outcome State Fault Refusal :=
  onBlock s (effTableSwap h p)

end Sys2Proof.Machine
end

