-- ==== Sys2Proof/Machine/Sequencers.lean ====
section
/-! DEFINITION. The SLALOM sequencers (R119 to R121, R131 to R148): entries, decisions, waits, underruns,
stops. -/

namespace Sys2Proof.Machine

/-! ## Candidates (R132) -/

/-- The candidates to follow the pass of sequencer `n`, in each of its passes (R132): the natural successor step, the jump
target, the targets of carried late jumps; in an underrun replay the successor that stands. -/
def candidates (s : Block) (n : Nat) : List Nat :=
  let q := seqr s n
  let w := stepAt s (getF s (qF n F.SEQ_CUR_STEP))
  if q.mode = 2 then (q.succ.map (fun x => x.step)).toList
  else (if stLoop w != 0 && !stEnd w then [stNext w] else []) ++ (if stJen w then [stJtgt w] else []) ++
    (q.latches.map (fun l => stJtgt (stepAt s l.2.owner)))

/-- The first granule of segment `id` comes into the buffer of sequencer `n`: in class RT0, where the loop cache does not
hold it (R106, R128, R132). -/
def readFirst (s : Block) (n id : Nat) : Block :=
  let g := seg s id
  let m := 64 * frameBytes g.sfmt g.na g.nl
  let s := fetchSeg s n id
  if cachedFor s n id then s
  else checkSeg (forEach (List.range (pagesOf m)) s (fun s k => tlbAccess s true (g.vpn + k))) 0 n 0 id 0 m

/-- Sequencer `n` holds the first granule of each segment that a candidate would play, but for an empty ring member
(R132), the segment ACTIVE; one held before and no candidate any more is let go. -/
def holdFirst (s : Block) (n : Nat) (cands : List Nat) : Block :=
  let q := seqr s n
  let ids := ((cands.filter (fun i => !stepEmpty s i)).map (stepSegment s)).dedup.filter (fun id => id != q.seg)
  let s := forEach (q.pre.filter (fun id => !ids.contains id)) s (dropPre n)
  let s := forEach (ids.filter (fun id => !q.pre.contains id)) s (fun s id => readFirst s n id)
  setSeq s n { seqr s n with pre := ids }

/-- The same at the first frame of a pass, long before its frame d; a ring member filled later is held by the boundary of
frame d, at which it is read. -/
def holdNow (s : Block) (n : Nat) : Block := holdFirst s n (candidates s n)

/-! ## Entering a step (R119, R144) -/

/-- The ring member before the next one: the one most recently taken. -/
def ringPrev (r : Ring) : Option Nat :=
  let k := r.members.length
  if k = 0 then none else r.members[(r.next + k - 1) % k]?

/-- A ring step takes the ring's next member; the member before it is released. -/
def ringTake (s : Block) (id : Nat) : Block :=
  let r := ringOf s id
  let s := match ringPrev r with
    | some m => releaseMember s m
    | none => s
  setRing s id { r with next := if r.members.length = 0 then 0 else (r.next + 1) % r.members.length }

/-- A pass begins at frame `f` (R131). -/
def newPass (s : Block) (n f : Nat) : Block :=
  let q := seqr s n
  let stop := q.stop.map (fun x => if x.frame.isNone then { x with frame := some (f + q.len) } else x)
  let s := setSeq s n { q with s := f, readDone := false, decided := false, empties := [],
                               succ := none, stop := stop, mode := 1 }
  set64 s (qF n F.SEQ_PSTART_LO_S) (qF n F.SEQ_PSTART_HI_S) f

/-- Step `i` is entered at frame `f` with hop count `hop` on its step start (R142 to R144): of the candidates of the step
that ends, those that it does not play are held no more. A GATE event latched before frame 0 under EARLY 1 is cleared with
the entry, without a flag: the spec does not say that it counts for the entry, nor that it is dropped (DESIGN CHOICE, log
entry 26). -/
def enterStep (s : Block) (n i f hop sink : Nat) : Block :=
  let w := stepAt s i
  let id := stepSegment s i
  let q := seqr s n
  let s := checkSteps s 2 n [i]
  let s := forEach (q.pre.filter (fun j => j != id)) (setSeq s n { q with pre := [] }) (dropPre n)
  let s := if q.seg = id then s else unfetchSeg s n q.seg
  let s := if (seg s (stSeg w)).st = 7 then ringTake s (stSeg w) else s
  let s := fetchSeg s n id
  let s := setSeq s n { seqr s n with seg := id, len := (seg s id).len, entry := f, amp := stAmp w,
                                      gateLat := none, release := none }
  let s := setF (setF s (qF n F.SEQ_CUR_STEP) i) (qF n F.SEQ_PASS_COUNT) 0
  let s := newPass s n f
  let s := seqEmit s n n hop f sink
  let s := holdNow (syncSeq s n) n
  if stUgen w then takeStrobe s (stUg w) (bt s n f) (bt s n f) 3 else s

/-! ## Decisions (R134, R135) -/

/-- A late jump recorded (R134). -/
def recordLate (s : Block) (n : Nat) (l : Nat × JumpLatch) : Block :=
  let s := raise s (qF n F.SEQ_STATUS_JUMP_LATE)
  let s := setF (setF s (qF n F.SEQ_LATE_VALID) 1) (qF n F.SEQ_LATE_IN) l.1
  setF s (qF n F.SEQ_LATE_STEP) l.2.owner

/-- A jump taken is counted. -/
def countJump (s : Block) (n : Nat) (l : Nat × JumpLatch) : Block :=
  let s := incF s (qF n F.SEQ_JUMPS_TAKEN)
  if l.2.late then incF (recordLate s n l) (qF n F.SEQ_JUMPS_LATE) else s

/-- A stop in PASS mode is to end the pass in course: it prevails over jumps (Table 06-8). -/
def passStop (q : SeqSt) : Bool :=
  match q.stop with
  | some x => x.pass && x.frame == some (q.s + q.len)
  | none => false

/-- The decision over the latches set before frame `f`: the lowest input prevails, the others are lost.
`gate`: the gate of the step applies to a jump that prevails. `cut`: it is made where an AT_GRANULE jump cuts, whose target
was read at its event's edge (R136); the target of a carried latch weighed there is read then (DESIGN CHOICE, log entry
48). -/
def decide' (s : Block) (n f : Nat) (gate cut : Bool) : Block :=
  let q := seqr s n
  let pol := getF s (qF n F.SEQ_CTRL_UPOL)
  if passStop q then setSeq s n { q with decided := true, upol := pol, cut := none }
  else
    let cov := q.latches.filter (fun l => decide (l.2.frame < f))
    let rest := q.latches.filter (fun l => decide (f ≤ l.2.frame))
    let q := { q with decided := true, upol := pol, cut := none, latches := rest }
    match cov with
    | [] => setSeq s n q
    | l :: others =>
      let s := forEach (others.filter (fun o => o.2.late)) s (fun s o => recordLate s n o)
      let s := countJump (recordLost s n (others.map (fun o => o.1))) n l
      let w := stepAt s l.2.owner
      let t := stJtgt w
      let empty := if !cut then q.empties.contains t
        else if stGran w && !l.2.late then l.2.empty else stepEmpty s t
      syncSeq (setSeq s n { q with succ := some ⟨t, true, gate, l.2.hop, 7 * n + l.1, empty⟩ }) n

/-! ## What follows a pass -/

/-- A cut that did not act is carried as a late latch (R134, R136). -/
def dropCut (s : Block) (n : Nat) : Block :=
  let q := seqr s n
  if q.cut.isNone then s
  else
    let l := q.latches.map (fun x => if stGran (stepAt s x.2.owner) then (x.1, { x.2 with late := true }) else x)
    syncSeq (setSeq s n { q with cut := none, latches := l }) n

/-- A strobe at boundary `b` makes EN of cluster `c` 0. -/
def enCut (s : Block) (c b : Nat) : Bool :=
  flag s (lF c F.LC_CTRL_EN) && !flag (applyStrobes s (96 + c) b) (lF c F.LC_CTRL_EN)

/-- The members of group `n` go to FAULT at frame `f`, its lanes to SAFE (Table 05-7, R169) but for a cluster whose EN is
strobed to 0 at that boundary (Table 08-4). -/
def underrunFault (s : Block) (n f : Nat) : Block :=
  let b := bt s n f
  let s := forEach (bitList (group s n).mask 64) s (fun s u => sendFault false (b - 1) s u)
  forEach (bitList (group s n).lcmask 8) s (fun s c =>
    let s := if enCut s c b then s else laneSafe b s c
    if getF s (lF c F.LC_STATE_CSTATE) = 4 then setLane s c { lane s c with underrunSafe := true } else s)

/-- The underrun of frame `f` (R121, Table 05-7). REPEAT replays the segment in play, also where an AT_GRANULE cut ended its
pass before its last frame (DESIGN CHOICE, log entry 48). -/
def underrun (s : Block) (n f : Nat) (x : Successor) : Block :=
  let id := stSeg (stepAt s x.step)
  let r := ringOf s id
  let s := setRing s id { r with uframe := f % 2 ^ 48, ucount := min 65535 (r.ucount + 1) }
  let s := raise (raise s F.MMU_STATUS_UNDERRUN) (qF n F.SEQ_STATUS_UNDERRUN)
  let s := dropCut s n
  let q := { seqr s n with succ := some x, lastIdx := f - 1 - (seqr s n).s }
  match q.upol with
  | 0 =>
    let s := newPass s n f
    holdNow (syncSeq (setSeq s n { seqr s n with mode := 2, decided := true, succ := some x, upol := q.upol }) n) n
  | 2 => underrunFault (seqEnd s n 4 4 0) n f
  | _ => syncSeq (setSeq (unfetchSeg s n q.seg) n { q with mode := 5, holdNext := f + 64, release := none }) n

/-- The frame at which a gate that listens to events releases a wait that begins at `f` (R138). -/
def gateRelease (s : Block) (n f : Nat) : Option Nat :=
  (seqr s n).gateLat.map (fun e => max f (frameFrom s n (e + 5000)))

/-- The wait of the step that ends begins at frame `f`, or has no frames (R137 to R140). Its frames under GIDLE 0 repeat the
last frame of the step, which after a cut is not the last of its segment (R139); nothing fetches that segment meanwhile
(R101). -/
def beginWait (s : Block) (n f : Nat) (x : Successor) : Block :=
  let w := stepAt s (getF s (qF n F.SEQ_CUR_STEP))
  let r := if stGsrc w = 2 then
      (if levelHeld s (getF s (qF n F.SEQ_GATECFG_LVL)) (bt s n f) then some f else none)
    else gateRelease s n f
  if r = some f then enterStep s n x.step f 0 255
  else
    let m := if stGidle w then 4 else 3
    let q := seqr s n
    let idx := if q.mode = 1 || q.mode = 2 then f - 1 - q.s else q.lastIdx
    let s := setSeq s n { q with mode := m, waitFrom := f, release := r, relEdge := q.gateLat.getD 0, gateLat := none, succ := some x, lastIdx := idx }
    let s := unfetchSeg s n q.seg
    let s := if stGidle w then fetchSeg s n (getF s (qF n F.SEQ_IDLE_SEG)) else s
    syncSeq (seqEmit s n (16 + n) 0 f 255) n

/-- What was decided follows at frame `f`: the wait, or the successor's first frame. -/
def goOn (s : Block) (n f : Nat) (x : Successor) : Block :=
  if x.gate then beginWait s n f x else enterStep s n x.step f x.hop x.sink

/-- The same, unless the read that counts found the successor's member empty. -/
def goOrUnder (s : Block) (n f : Nat) (x : Successor) : Block :=
  if x.empty then underrun s n f x else goOn s n f x

/-! ## Guards -/

/-- Sequencer `n` runs and has begun its frame 0. -/
def seqPlays (s : Block) (n : Nat) : Bool := getF s (qF n F.SEQ_STATE_SSTATE) == 3 && (seqr s n).played

/-- A stop acts at the next frame to enter. -/
def stopHere (q : SeqSt) : Bool :=
  match q.stop with
  | some x => (match x.frame with
    | some f => decide (f ≤ q.frame)
    | none => false)
  | none => false

/-- The boundary of sequencer `n`'s next frame has come, and no stop acts at it. -/
def seqDue (s : Block) (n : Nat) : Bool :=
  seqPlays s n && decide (bt s n (seqr s n).frame ≤ s.sysTime) && !stopHere (seqr s n)

/-! ## The happenings -/

/-- RING_READ (R120, R132): at the boundary of frame d, the rings that candidate successors name, whose first granules are
held by then. The replay of an underrun reads the ring of the successor that stands. -/
def effRingRead (n : Nat) (s : Block) : Out :=
  withIdx 16 n <|
    let q := seqr s n
    if !seqDue s n || !(q.mode = 1 || q.mode = 2) || q.readDone || q.frame != decisionFrame q then .next s
    else
      let cands := candidates s n
      let es := cands.filter (stepEmpty s)
      let succ := if q.mode = 2 then q.succ.map (fun x => { x with empty := es.contains x.step }) else q.succ
      .next (holdFirst (setSeq s n { q with readDone := true, empties := es, succ := succ }) n cands)

/-- JUMP_DECISION (R134, R135): at the boundary of frame d + 1. A pass that an AT_GRANULE jump cuts counts as
decided at the cut (R136). -/
def effJumpDecision (n : Nat) (s : Block) : Out :=
  withIdx 16 n <|
    let q := seqr s n
    if !seqDue s n || q.mode != 1 || !q.readDone || q.decided || q.cut.isSome ||
        q.frame != decisionFrame q + 1 then .next s
    else
      let w := stepAt s (getF s (qF n F.SEQ_CUR_STEP))
      .next (decide' s n q.frame (stGsrc w != 0 && stJgate w) false)

/-- What the loop count leaves to follow the pass: another pass, the end, or the natural successor, which before a gate
wait the target of an AT_GRANULE jump replaces (R136). -/
def afterPass (s : Block) (n f : Nat) : Block :=
  let w := stepAt s (getF s (qF n F.SEQ_CUR_STEP))
  if stLoop w = 0 || decide (getF s (qF n F.SEQ_PASS_COUNT) < stLoop w) then
    holdNow (syncSeq (newPass s n f) n) n
  else if stEnd w then seqEnd s n 5 3 0
  else
    let x : Successor := ⟨stNext w, false, stGsrc w != 0, 0, 255, (seqr s n).empties.contains (stNext w)⟩
    if x.gate && (seqr s n).cut.isSome then
      let s := decide' s n f true true
      goOrUnder s n f ((seqr s n).succ.getD x)
    else goOrUnder s n f x

/-- PASS_END (R131, R148). -/
def effPassEnd (n : Nat) (s : Block) : Out :=
  withIdx 16 n <|
    let q := seqr s n
    let f := q.s + q.len
    if !seqDue s n || q.frame != f || q.cut = some f then .next s
    else if q.mode = 2 then
      match q.succ with
      | some x => .next (if q.readDone then goOrUnder s n f x else s)
      | none => .next s
    else if q.mode != 1 || !q.decided then .next s
    else
      let s := incF s (qF n F.SEQ_PASS_COUNT)
      match q.succ with
      | some x => .next (goOrUnder (dropCut s n) n f x)
      | none => .next (afterPass s n f)

/-- A hold in a blackout goes on for 64 frames more, or, with DRAM served again, the content goes on where it was
held, later by the frames held (R280), and with it the end of the pass at which a stop in PASS mode acts, and the entry whose
chain has been read. -/
def blackoutCheck (s : Block) (n : Nat) : Block :=
  let q := seqr s n
  if s.dramc.blackout.isSome then setSeq s n { q with holdNext := q.frame + 64 }
  else
    let d := q.frame - q.heldAt
    let first := q.entry = q.s
    let q := if q.held = 4 then { q with waitFrom := q.waitFrom + d }
      else { q with
        s := q.s + d, entry := if first then q.s + d else q.entry, cut := q.cut.map (· + d)
        stop := q.stop.map (fun x => if x.pass then { x with frame := x.frame.map (· + d) } else x)
        carved := if first && q.carved == some q.entry then some (q.s + d) else q.carved }
    syncSeq (setSeq s n { q with mode := q.held, held := 0 }) n

/-- UNDERRUN_HOLD_CHECK (Table 05-7): the next member is read again; once found filled it plays 64 frames
later. -/
def effUnderrunHoldCheck (n : Nat) (s : Block) : Out :=
  withIdx 16 n <|
    let q := seqr s n
    if !seqDue s n || q.mode != 5 then .next s
    else if q.held != 0 then .next (if q.frame == q.holdNext then blackoutCheck s n else s)
    else
      match q.succ with
      | none => .next s
      | some x =>
        if q.release = some q.frame then
          .next (goOn (setSeq s n { q with release := none }) n q.frame x)
        else if q.release.isNone && q.frame == q.holdNext then
          if (seg s (stepSegment s x.step)).st = 5 then
            .next (setSeq s n { q with release := some (q.frame + 64) })
          else .next (setSeq s n { q with holdNext := q.frame + 64 })
        else .next s

/-- GRANULE_JUMP (R136). A stop in PASS mode that is to end this pass prevails. -/
def effGranuleJump (n : Nat) (s : Block) : Out :=
  withIdx 16 n <|
    let q := seqr s n
    if !seqDue s n || q.mode != 1 || q.cut != some q.frame then .next s
    else if passStop q then
      let s := recordLost s n (q.latches.map (fun l => l.1))
      .next (syncSeq (setSeq s n { q with cut := none, latches := [] }) n)
    else
      let w := stepAt s (getF s (qF n F.SEQ_CUR_STEP))
      let s := decide' s n q.frame (stGsrc w != 0 && stJgate w) true
      match (seqr s n).succ with
      | some x => .next (goOrUnder s n q.frame x)
      | none => .next s

/-- The frame at which the wait of sequencer `n` is released has come. -/
def releaseHere (s : Block) (n : Nat) : Bool :=
  let q := seqr s n
  let w := stepAt s (getF s (qF n F.SEQ_CUR_STEP))
  (q.mode == 3 || q.mode == 4) && (q.release == some q.frame ||
    (stGsrc w == 2 && levelHeld s (getF s (qF n F.SEQ_GATECFG_LVL)) (bt s n q.frame)))

/-- GATE_RELEASE (R138 to R140): the wait ends and the successor's first frame begins. -/
def effGateRelease (n : Nat) (s : Block) : Out :=
  withIdx 16 n <|
    let q := seqr s n
    if !seqDue s n || !releaseHere s n then .next s
    else
      match q.succ with
      | none => .next s
      | some x =>
        let s := setF s (qF n F.SEQ_GWAIT_FRAMES) (min (2 ^ 32 - 1) (q.frame - q.waitFrom))
        let s := if q.mode = 4 then unfetchSeg s n (getF s (qF n F.SEQ_IDLE_SEG)) else s
        .next (enterStep s n x.step q.frame 0 255)

/-- FRAME_0 (R130): the start step is entered at frame 0. -/
def effFrame0 (n : Nat) (s : Block) : Out :=
  withIdx 16 n <|
    let q := seqr s n
    match q.startAt with
    | none => .next s
    | some b =>
      if getF s (qF n F.SEQ_STATE_SSTATE) != 3 || q.played || decide (s.sysTime < b) || stopHere q then
        .next s
      else
        let s := setSeq s n { q with startAt := none, played := true, t0 := b, frame := 0 }
        .next (enterStep s n (getF s (qF n F.SEQ_START_STEP)) 0 0 255)

/-- STOP_TAKES_EFFECT (R145, R146). -/
def effStopTakesEffect (n : Nat) (s : Block) : Out :=
  withIdx 16 n <|
    let q := seqr s n
    match q.stop with
    | none => .next s
    | some x =>
      if getF s (qF n F.SEQ_STATE_SSTATE) != 3 || !stopHere q || decide (s.sysTime < bt s n q.frame) then
        .next s
      else .next (seqEnd s n 4 x.cause x.hop)

/-! ## CARVE_APPLY (R159) -/

/-- The frame at which a step follows a pass, a replay or a hold that ends at frame `f`: that frame, or, behind the gate
of the step that ends, the frame that a latched event fixes; none where a level, or an event to come, does. -/
def fixedBehind (s : Block) (n f : Nat) (x : Successor) : Option (Nat × Nat) :=
  let w := stepAt s (getF s (qF n F.SEQ_CUR_STEP))
  if !x.gate then some (f, x.step)
  else if stGsrc w = 1 then (gateRelease s n f).map (fun r => (r, x.step))
  else none

/-- The entry that sequencer `n` has fixed and whose chain it has not read: frame and step. -/
def entryFixed (s : Block) (n : Nat) : Option (Nat × Nat) :=
  let q := seqr s n
  if getF s (qF n F.SEQ_STATE_SSTATE) != 3 then none
  else if !q.played then q.startAt.map (fun _ => (0, getF s (qF n F.SEQ_START_STEP)))
  else if q.mode = 1 && q.frame = q.entry && q.s = q.entry && q.carved != some q.entry then
    some (q.entry, getF s (qF n F.SEQ_CUR_STEP))
  else
    match q.mode, q.succ with
    | 5, some x => if q.held != 0 then none else q.release.bind (fun r => fixedBehind s n r x)
    | 3, some x => q.release.map (fun r => (r, x.step))
    | 4, some x => q.release.map (fun r => (r, x.step))
    | 2, some x => if !q.readDone || x.empty then none else fixedBehind s n (q.s + q.len) x
    | 1, some x => if x.empty then none else fixedBehind s n (q.s + q.len) x
    | 1, none =>
      let w := stepAt s (getF s (qF n F.SEQ_CUR_STEP))
      let e := q.s + q.len
      let last := stLoop w != 0 && decide (stLoop w ≤ getF s (qF n F.SEQ_PASS_COUNT) + 1)
      let x : Successor := ⟨stNext w, false, stGsrc w != 0, 0, 255, q.empties.contains (stNext w)⟩
      let nat := if !q.decided || !last || stEnd w || x.empty then none else fixedBehind s n e x
      match q.cut, q.latches with
      | some b, [(_, l)] => if e < b && q.carved != some e then nat
          else if l.empty then none else some (b, stJtgt (stepAt s l.owner))
      | some _, _ => none
      | none, _ => nat
    | _, _ => none

/-- The same, unless a stop taken before acts at that frame or earlier: the entry never comes. -/
def fixedEntry (s : Block) (n : Nat) : Option (Nat × Nat) :=
  let last := ((seqr s n).stop.bind (fun x => x.frame))
  (entryFixed s n).filter (fun e => match last with
    | some f => decide (e.1 < f)
    | none => true)

/-- The chain of the entry has still to be read before its first frame plays. -/
def carveOwed (s : Block) (n : Nat) : Bool :=
  let q := seqr s n
  q.mode == 1 && q.frame == q.entry && q.s == q.entry && q.carved != some q.entry &&
    stCidx (stepAt s (getF s (qF n F.SEQ_CUR_STEP))) != 0

/-- CARVE_APPLY: the sequencer reads the chain 5,000 ns before the entry it has fixed, or when it fixes it
later, at once. An entry that only a level fixes, at its own boundary (R140), has its chain applied as part of its first
frame all the same (R144). -/
def effCarveApply (n : Nat) (s : Block) : Out :=
  withIdx 16 n <|
    match fixedEntry s n with
    | none => .next s
    | some (f, i) =>
      let q := seqr s n
      let c := stCidx (stepAt s i)
      if c = 0 || q.carved = some f || decide (s.sysTime + 5000 < bt s n f) then .next s
      else
        let entered := q.mode = 1 && q.frame = q.entry && f = q.entry
        let s := setSeq s n { q with carved := some f }
        .next (carveRead s n c (if entered then bt s n f else max (bt s n f) (s.sysTime + 5000)))

/-- ADMISSION_RELEASE (R128): 10 ms after frame 0. -/
def effAdmissionRelease (n : Nat) (s : Block) : Out :=
  withIdx 16 n <|
    let q := seqr s n
    if !q.admitted || !q.played || decide (s.sysTime < q.t0 + 10000000) then .next s
    else .next (pacRelease (setSeq s n { q with admitted := false }) 7 500)

/-! ## The meanings -/

/-- JUMP_DECISION (R134, R135), done to the block; the queue stays. -/
def execJumpDecision (n : Nat) (s : State) : Host.Outcome State Fault Refusal :=
  onBlock s (effJumpDecision n)

/-- CARVE_APPLY, done to the block; the queue stays. -/
def execCarveApply (n : Nat) (s : State) : Host.Outcome State Fault Refusal :=
  onBlock s (effCarveApply n)

/-- ADMISSION_RELEASE (R128), done to the block; the queue stays. -/
def execAdmissionRelease (n : Nat) (s : State) : Host.Outcome State Fault Refusal :=
  onBlock s (effAdmissionRelease n)

end Sys2Proof.Machine
end

