-- ==== Sys2Proof/Machine/SeqCommands.lean ====
section
/-! DEFINITION. The sequencer commands (R126 to R128, R130, Table 13-3). -/

namespace Sys2Proof.Machine

/-! ## STEPS_WRITE -/

/-- The window of sequencer `n` overlaps steps `a` to `b`. -/
def windowMeets (s : Block) (n a b : Nat) : Bool :=
  decide (getF s (qF n F.SEQ_WBASE_STEP) ≤ b) && decide (a ≤ getF s (qF n F.SEQ_WLIMIT_STEP))

/-- Step `i` of a run of data words. -/
def stepOfData (l : List Word) (i : Nat) : Nat :=
  (List.range 4).foldl (fun n k => n + (l.getD (4 * i + k) 0).toNat * 2 ^ (32 * k)) 0

/-- The data words, where the packet carries what COUNT asks (Table 13-3). -/
def stepsData (s : Block) (h : Hdr) (p d : List Word) : Option (List Word) :=
  let n := pb p 2 20 0 * 4
  if pb p 1 24 24 = 1 then
    if inWindow s h.ring || p.length != 4 then none else some ((d ++ List.replicate n 0).take n)
  else if p.length = 2 + n then some (p.drop 2) else none

/-- Steps `i` to `i + n - 1` of the run written, with fresh codes. -/
def stepsSome (s : Block) (first : Nat) (data : List Word) (i n : Nat) : Block :=
  let m := (List.range n).foldl (fun m k =>
    Tbl.set (fun _ => 0) m (first + i + k) (stepOfData data (i + k))) s.mem.steps
  let l := (List.range n).map (· + (first + i))
  let errs := s.mem.errs.filter (fun e => !l.any (fun k => stepWord k e.1))
  let s := noteUndo s (l.map (fun k => .word k (Tbl.get (fun _ => 0) s.mem.steps k)))
  injectErr (noteServed { s with mem := { s.mem with steps := m, errs := errs } } 8) (some (0x2000000 + 16 * (first + i)))

/-- STEPS_WRITE's checks and first 256 entries (R126); a reserved encoding in steps that the packet carries comes before them
(R287). -/
def stepsWriteBody (h : Hdr) (d : List Word) (s : Block) (p : List Word) : CmdRes :=
  let first := pb p 1 19 0
  let n := pb p 2 20 0
  let given := (p.length - 2) / 4
  if pb p 1 24 24 = 0 && (List.range given).any (fun i => stBad (stepOfData (p.drop 2) i)) then .fail s Sts.badParam
  else notInBoot s <| needsDram s (dramBad s) <|
    if n = 0 || decide (1048576 < first + n) then .fail s Sts.badParam
    else
      match stepsData s h p d with
      | none => .fail s Sts.badParam
      | some data =>
        if (List.range 16).any (fun k => getF s (qF k F.SEQ_STATE_SSTATE) != 0 &&
            windowMeets s k first (first + n - 1)) then .fail s Sts.state
        else if (List.range n).any (fun i => stBad (stepOfData data i)) then .fail s Sts.badParam
        else
          let c := min n 256
          let s := stepsSome s first data 0 c
          if c = n then .done s Sts.ok 0 n (first + n)
          else .more s c (first + c) (c :: data.map (fun w => w.toNat))

/-- STEPS_WRITE (0x21). -/
def effStepsWrite (h : Hdr) (p d : List Word) (s : Block) : Out :=
  runCmd s h 0x21 p d (fun n => decide (5 ≤ n)) [0x10FFFFF, 0x1FFFFF] (stepsWriteBody h d)

/-- A later step of STEPS_WRITE: 256 entries more. -/
def stepsContinue (s : Block) (j : Job) : Block :=
  let i := j.todo.headD 0
  let first := pb j.p 1 19 0
  let n := pb j.p 2 20 0
  let data := (j.todo.drop 1).map Word.ofNat
  let c := min (n - i) 256
  let s := stepsSome s first data i c
  let k := { j with steps := i + c, result := first + i + c, todo := (i + c) :: j.todo.drop 1 }
  if i + c < n then putJob s j k else endJob s k Sts.ok 0

/-- A STEPS_WRITE in progress covers part of the window of sequencer `n` (Table 06-8). -/
def stepsBusy (s : Block) (n : Nat) : Bool :=
  s.cmd.jobs.any (fun j => j.op == Op.stepsWrite &&
    windowMeets s n (pb j.p 1 19 0) (pb j.p 1 19 0 + pb j.p 2 20 0 - 1))

/-! ## SEQ_ARM (R128) -/

/-- The steps a step links to: NEXT unless END is 1 or LOOP is 0, and JTGT where JEN is 1. -/
def stepLinks (w : Nat) : List Nat :=
  (if stEnd w || stLoop w = 0 then [] else [stNext w]) ++ (if stJen w then [stJtgt w] else [])

/-- The steps reachable from those of `todo`, at most `fuel` of them visited. -/
def reach (s : Block) (lo hi : Nat) : Nat → List Nat → List Nat → List Nat
  | 0, _, seen => seen
  | _ + 1, [], seen => seen
  | k + 1, i :: t, seen =>
    if seen.contains i || decide (i < lo) || decide (hi < i) then reach s lo hi k t seen
    else reach s lo hi k (stepLinks (stepAt s i) ++ t) (insertNat i seen)

/-- The steps that sequencer `n` can reach, in ascending order. -/
def reachable (s : Block) (n : Nat) : List Nat :=
  let lo := getF s (qF n F.SEQ_WBASE_STEP)
  let hi := getF s (qF n F.SEQ_WLIMIT_STEP)
  reach s lo hi (3 * (hi + 1 - lo) + 2) [getF s (qF n F.SEQ_START_STEP)] []

/-- The segments a step's SEG stands for: itself, or the members of its ring. -/
def segsOf (s : Block) (id : Nat) : List Nat :=
  if (seg s id).st = 7 then (ringOf s id).members else [id]

/-- The segment does not play in group `n` (R99); a FREE one has no format and fails at its pin. -/
def formatBad (s : Block) (n id : Nat) : Bool :=
  let g := seg s id
  let gr := group s n
  g.st != 0 && (g.na != popCount gr.mask 64 || g.nl != popCount gr.lcmask 8)

/-- The segment cannot be pinned (R107, R108); `ring`: it is named as a member of a ring. A step that names a ring member by
its own id fails the arm with STATE, as a segment in none of the states R107 allows: the spec does not say whether it may
(DESIGN CHOICE, log entry 26). -/
def pinBad (s : Block) (ring : Bool) (id : Nat) : Bool :=
  let g := seg s id
  (if ring then g.pin != 0 else g.member || !(g.st = 2 || g.st = 3)) || !fullyMapped s g

/-- The first of a list with a property. -/
def firstBad (l : List Nat) (f : Nat → Bool) : Option Nat := l.find? f

/-- An arm that fails: IDLE, with nothing of it left (R128). -/
def armFail (s : Block) (n status result : Nat) : CmdRes :=
  .done (setF s (qF n F.SEQ_STATE_SSTATE) 0) status 0 1 result

/-- The ids whose segments an arm pins: those the reachable steps name, and the idle segment where a gate of
theirs plays it. -/
def armIds (s : Block) (n : Nat) : List Nat :=
  let l := reachable s n
  let idle := l.any (fun i => stGsrc (stepAt s i) != 0 && stGidle (stepAt s i))
  ((l.map (fun i => stSeg (stepAt s i))) ++ (if idle then [getF s (qF n F.SEQ_IDLE_SEG)] else [])).dedup

/-- The loop cache filled for the arm (R112): the steps in ascending index whose loop count is other than 1,
then a looped idle segment. -/
def armCache (s : Block) (n : Nat) : Block :=
  if !flag s F.MMU_CTRL_LC_EN then s
  else
    let l := reachable s n
    let idle := l.any (fun i => stGsrc (stepAt s i) != 0 && stGidle (stepAt s i))
    let ids := ((l.filter (fun i => stLoop (stepAt s i) != 1)).map (fun i => stSeg (stepAt s i))) ++
      (if idle then [getF s (qF n F.SEQ_IDLE_SEG)] else [])
    forEach ids s (cacheSeg n)

/-- The last steps of an arm: the cache, the frame counter, the first granule, the generators. -/
def armDone (s : Block) (n : Nat) : Block :=
  let s := armCache s n
  let i := getF s (qF n F.SEQ_START_STEP)
  let id := stepSegment s i
  let s := readFirst s n id
  let q := seqr s n
  let s := setSeq s n { ({} : SeqSt) with
    seg := id, len := (seg s id).len, amp := stAmp (stepAt s i), pins := q.pins, admitted := q.admitted }
  let s := set64 s (qF n F.SEQ_FRAME_LO_FRAME) (qF n F.SEQ_FRAME_HI_FRAME) 0
  let s := set64 s (qF n F.SEQ_PSTART_LO_S) (qF n F.SEQ_PSTART_HI_S) 0
  let s := setF s (qF n F.SEQ_PASS_COUNT) 0
  let s := forEach (bitList (group s n).mask 64) s (fun s u => setUnit (armSynth s u) u
    { unit (armSynth s u) u with delivered := false })
  setF (syncSeq s n) (qF n F.SEQ_STATE_SSTATE) 2

/-- The arm ends: armed, unless a read of it met an uncorrectable word. -/
def armEnd (s : Block) (n : Nat) : CmdRes :=
  let t := armDone s n
  if ueMet t then armFail (disarm t n) n Sts.dramFrozen 0 else .okay t

/-- SEQ_ARM's checks in the order of R128 up to the admission, and its effect. -/
def seqArmBody (h : Hdr) (s : Block) (p : List Word) : CmdRes :=
  let n := pb p 1 3 0
  let st := getF s (qF n F.SEQ_STATE_SSTATE)
  notInBoot s <|
    if !(st = 0 || st = 4 || st = 5) then .fail s Sts.state
    else
    let busy := stepsBusy s n
    let s := disarm s n
    if dramBad s then armFail s n Sts.dramFrozen 0
    else if busy then armFail s n Sts.busy 0
    else
      let gr := group s n
      let lo := getF s (qF n F.SEQ_WBASE_STEP)
      let hi := getF s (qF n F.SEQ_WLIMIT_STEP)
      let start := getF s (qF n F.SEQ_START_STEP)
      if (gr.mask = 0 && gr.lcmask = 0) || (members s n).any (calNamed s) then armFail s n Sts.state 0
      else if decide (start < lo) || decide (hi < start) then armFail s n Sts.badParam start
      else
        let l := reachable s n
        let s := checkSteps s 8 0 l
        let ids := armIds s n
        let segs := ids.flatMap (fun i => (segsOf s i).map (fun g => ((seg s i).st == 7, g)))
        match l.find? (fun i => (stepLinks (stepAt s i)).any (fun j => decide (j < lo) || decide (hi < j))) with
        | some i => armFail s n Sts.badParam i
        | none =>
          match segs.find? (fun x => formatBad s n x.2), segs.find? (fun x => pinBad s x.1 x.2) with
          | some x, _ => armFail s n Sts.badParam x.2
          | none, some x => armFail s n Sts.state x.2
          | none, none =>
            if stepEmpty s start then armFail s n Sts.state (stepSegment s start)
            else
              let s := forEach segs s (fun s x => pinSeg s x.2)
              let s := setSeq s n { seqr s n with pins := segs.map (fun x => x.2) }
              let s := setF s (qF n F.SEQ_STATE_SSTATE) 1
              if popCount gr.mask 64 ≤ 20 then armEnd s n
              else
                let r : PacReq := ⟨2, 111, [(7, 500)], .seq n, h.ring, s.cmd.cur, s.now + toCmd s⟩
                let a := pacAsk s r false
                match a.2 with
                | .grant => armEnd a.1 n
                | .deny => armFail (disarm a.1 n) n Sts.powerDenied 0
                | .queue => .more a.1 1 0 [0]

/-- SEQ_ARM (0x22). -/
def effSeqArm (h : Hdr) (p : List Word) (s : Block) : Out :=
  runCmd s h 0x22 p [] (· == 2) [0xF] (seqArmBody h)

/-- A SEQ_ARM whose admission was queued goes on once PAC has answered. -/
def armContinue (s : Block) (j : Job) : Block :=
  let n := pb j.p 1 3 0
  let hd := j.todo.headD 0
  if 0x1000 ≤ hd then
    endJob (setF (disarm s n) (qF n F.SEQ_STATE_SSTATE) 0) j (hd - 0x1000) 0
  else if (seqr s n).admitted then
    let t := armDone s n
    if ueMet t then endJob (setF (disarm t n) (qF n F.SEQ_STATE_SSTATE) 0) j Sts.dramFrozen 0
    else endJob t { j with steps := j.steps + 1 } Sts.ok 0
  else s

/-! ## SEQ_START -/

/-- SEQ_START's checks and effect: every named sequencer takes the start at one edge. -/
def seqStartBody (s : Block) (p : List Word) : CmdRes :=
  let l := bitList (pb p 1 15 0) 16
  notInBoot s <|
    if l.isEmpty then .fail s Sts.badParam
    else if modeOf s = 1 || modeOf s = 4 then .fail s Sts.state
    else if l.any (fun n => getF s (qF n F.SEQ_STATE_SSTATE) != 2) then .fail s Sts.state
    else
      let e := nextEdge s
      let s := forEach l s (fun s n => takeStart s n e)
      .wait s [e] 0 (match l with
        | n :: _ => (seqr s n).t0 % 2 ^ 32
        | [] => 0)

/-- SEQ_START (0x23). -/
def effSeqStart (h : Hdr) (p : List Word) (s : Block) : Out :=
  runCmd s h 0x23 p [] (· == 2) [0xFFFF] seqStartBody

/-- A waiting SEQ_START ends once frame 0 has begun on every named sequencer, or ABORTED where a stop took one
before it. -/
def settleStart (s : Block) (j : Job) : Block :=
  let l := bitList (pb j.p 1 15 0) 16
  let e := j.todo.headD 0
  if l.all (fun n => (seqr s n).played && (seqr s n).startE == e) then endJob s j Sts.ok 0
  else if l.any (fun n => !((seqr s n).startE == e && ((seqr s n).played ||
      getF s (qF n F.SEQ_STATE_SSTATE) == 3))) then endJob s j Sts.aborted 0
  else s

/-! ## SEQ_STOP -/

/-- SEQ_STOP's checks and effect (R127, R145). -/
def seqStopBody (s : Block) (p : List Word) : CmdRes :=
  let n := pb p 1 3 0
  let mode := pb p 1 9 8
  let dis := pb p 1 12 12 = 1
  let st := getF s (qF n F.SEQ_STATE_SSTATE)
  notInBoot s <|
    if mode = 3 then .fail s Sts.badParam
    else if st = 4 || st = 5 then
      .okay (if dis then setF (disarm s n) (qF n F.SEQ_STATE_SSTATE) 0 else s)
    else if st = 2 then .okay (stopEvent s n (nextEdge s) mode 1 0 dis)
    else if st = 3 then .wait (stopEvent s n (nextEdge s) mode 1 0 dis) [] 0 0
    else .fail s Sts.state

/-- SEQ_STOP (0x24). -/
def effSeqStop (h : Hdr) (p : List Word) (s : Block) : Out :=
  runCmd s h 0x24 p [] (· == 2) [0x130F] seqStopBody

/-- A waiting SEQ_STOP ends when the sequencer has stopped, or ended. -/
def settleStop (s : Block) (j : Job) : Block :=
  if getF s (qF (pb j.p 1 3 0) F.SEQ_STATE_SSTATE) = 3 then s else endJob s j Sts.ok 0

/-! ## SEQ_JUMP -/

/-- SEQ_JUMP (R127, R133): where the edge lies in a frame that has not begun, the command waits for it. -/
def seqJumpBody (s : Block) (p : List Word) : CmdRes :=
  let n := pb p 1 3 0
  notInBoot s <|
    if getF s (qF n F.SEQ_STATE_SSTATE) != 3 then .fail s Sts.state
    else
      let r := jumpEvent s n (pb p 1 9 8) (nextEdge s) true 0
      match r.2 with
      | some b => .done r.1 Sts.ok 0 1 (b2n b)
      | none => .wait r.1 [nextEdge s] 0 0

/-- SEQ_JUMP (0x25). -/
def effSeqJump (h : Hdr) (p : List Word) (s : Block) : Out :=
  runCmd s h 0x25 p [] (· == 2) [0x30F] seqJumpBody

/-! ## The meanings -/

/-- STEPS_WRITE (0x21), done to the block; the queue stays. -/
def execStepsWrite (h : Hdr) (p d : List Word) (s : State) : Host.Outcome State Fault Refusal :=
  onBlock s (effStepsWrite h p d)

/-- SEQ_START (0x23), done to the block; the queue stays. -/
def execSeqStart (h : Hdr) (p : List Word) (s : State) : Host.Outcome State Fault Refusal :=
  onBlock s (effSeqStart h p)

/-- SEQ_STOP (0x24), done to the block; the queue stays. -/
def execSeqStop (h : Hdr) (p : List Word) (s : State) : Host.Outcome State Fault Refusal :=
  onBlock s (effSeqStop h p)

/-- SEQ_JUMP (0x25), done to the block; the queue stays. -/
def execSeqJump (h : Hdr) (p : List Word) (s : State) : Host.Outcome State Fault Refusal :=
  onBlock s (effSeqJump h p)

end Sys2Proof.Machine
end

