-- ==== Sys2Proof/Machine/Jobs.lean ====
section
/-! DEFINITION. Waiting commands that end by what happens in the part (R292): each is looked at after a
happening that can end it. -/

namespace Sys2Proof.Machine

/-- One waiting command looked at. -/
def settleJob (s : Block) (j : Job) : Block :=
  if j.op = Op.unitEnable then settleEnable s j
  else if j.op = Op.unitRange then settleRange s j
  else if j.op = Op.unitDisable then settleDisable s j
  else if j.op = Op.unitConfig then settleConfig s j
  else if j.op = Op.tableSwap then settleSwap s j
  else if j.op = Op.seqStart then settleStart s j
  else if j.op = Op.seqStop then settleStop s j
  else if j.op = Op.pacReserve then settleReserve s j
  else if j.op = Op.resumeFromSafe then settleResume s j
  else if j.op = Op.segCompact then settleCompact s j
  else if j.op = Op.modeSet then settleModeSet s j
  else if j.op = Op.pllConfig then settlePll s j
  else if j.op = Op.pllRelock then settleRelock s j
  else if j.op = Op.gydenConfig then settleGyden s j
  else if j.op = Op.gydenMeasure then settleMeasure s j
  else s

/-- The group of sequencer `n` is DRAM-dependent: armed, and its reachable set names a segment or ring not wholly
held in the loop cache (R271). -/
def dependent (s : Block) (n : Nat) : Bool :=
  getF s (qF n F.SEQ_STATE_SSTATE) != 0 && (seqr s n).pins.any (fun id => (seg s id).st == 7 || !cachedFor s n id)

/-- A dependent group that still plays from its buffers. -/
def stillPlays (s : Block) (n : Nat) : Bool :=
  let st := getF s (qF n F.SEQ_STATE_SSTATE)
  dependent s n && (st == 2 || st == 3)

/-- Entry into SLEEP: units in REST ramp to zero and park, lane drivers go high-impedance, and a node leaves the
bus. -/
def sleepEntry (s : Block) : Block :=
  let s := forEach ((List.range 64).filter (fun u => ostate s u == 1)) s (fun s u =>
    schedUnit s u (s.sysTime + 1) .park)
  let s := forEach (List.range 8) s (fun s c =>
    laneCut (setF s (lF c F.LC_STATE_CSTATE) 0) c (nextBit s.sysTime) {})
  let s := setF (setF s F.GYDEN_CONFIG_EN 0) F.GYDEN_STATE_LINK 0
  { s with boot := { s.boot with sleeping := true } }

/-- The mode after the last application. -/
def finishChange (s : Block) (c : ModeChange) (e : Nat) : Block :=
  let s := { s with sys := { s.sys with change := none, cdie := c.target } }
  let s := setF (setF s F.GLOBAL_MODE_CUR c.target) F.GLOBAL_MODE_CHANGING 0
  let s := setF (setF s F.POWER_MODE_LAST_ABANDONED 0) F.POWER_MODE_LAST_TARGET c.target
  let s := setF (setF s F.POWER_MODE_LAST_REASON 0) F.POWER_MODE_LAST_DETAIL 0
  let s := maxF s F.GLOBAL_MODE_SKEW_NS (c.last - c.first)
  match s.cmd.jobs.find? (fun j => j.op == Op.modeSet) with
  | none => if c.target = 5 then sleepEntry s else s
  | some j =>
    let k := { j with result := e % 2 ^ 32 }
    if c.target = 5 then sleepEntry (putJob s j k) else endJob s k Sts.ok 0

/-- A committed change that every party still in it has applied is finished; a region that enters SAFE may have been the
last (R30, R354). -/
def settleChange (s : Block) : Block :=
  match s.sys.change with
  | some c =>
    match c.edge with
    | some e => if c.parties.all (fun q => c.applied.contains q) then finishChange s c e else s
    | none => s
  | none => s

/-- What waits for happenings elsewhere in the part goes on: a page retirement (R111), the SAFE that follows a freeze
once no DRAM-dependent group plays (R271). -/
def settleGates (s : Block) : Block :=
  let s := relockGate (settleChange s)
  let s := if s.sys.retire.isEmpty then s else resumeMoves s
  if s.dramc.safeDue && getF s F.DRAMC_STATE_DSTATE == 4 && !(List.range 16).any (stillPlays s) then
    packageSafe { s with dramc := { s.dramc with safeDue := false } } 5
  else s

/-- Every command taken and not completed, in the order taken, looked at once; a change that has its grant
begins at the NOR. -/
def settleJobs (s : Block) : Block :=
  let s := settleGates s
  nvmKick (s.cmd.jobs.foldl (fun s j => if s.cmd.jobs.contains j then settleJob s j else s) s)

/-- What a happening does, and the waiting commands that it ends. -/
def settled (f : Block → Out) (b : Block) : Out :=
  match f b with
  | .next t => .next (settleJobs t)
  | o => o

/-- A step after which a command that waits may end. -/
def onSettled (s : State) (f : Block → Out) : Host.Outcome State Fault Refusal := onBlock s (settled f)

/-! ## The happenings that end a sequence -/

/-- STOP_TAKES_EFFECT (R145, R146), done to the block; the queue stays. -/
def execStopTakesEffect (n : Nat) (s : State) : Host.Outcome State Fault Refusal :=
  onSettled s (effStopTakesEffect n)

end Sys2Proof.Machine
end

