-- ==== Sys2Proof/Machine/Capture.lean ====
section
/-! DEFINITION. Captures and TRACK engines (R187 to R204): slots, records, conditions, ticks, upload. -/

namespace Sys2Proof.Machine

/-! ## Layout (R187) -/

/-- Member units of a configuration, ascending. -/
def capUnits (c : CapCfg) : List Nat := bitList c.units 32

/-- The slot size SB. -/
def slotBytes (c : CapCfg) : Nat :=
  64 + 64 * (((c.pre + c.post) * (capUnits c).length * 4 + 63) / 64)

/-- Blocks of 64 bytes of CAPSEG. -/
def capBlocks (s : Block) (c : CapCfg) : Nat := (seg s c.capseg).len

/-- The byte offset in CAPSEG of byte `o` of record `j`'s slot: circular by blocks under UP (R190). -/
def slotOfs (s : Block) (c : CapCfg) (j o : Nat) : Nat :=
  let a := j * slotBytes c + o
  if c.up then a % (64 * max 1 (capBlocks s c)) else a

/-- Bytes of record `j`'s slot written from byte `o` up. -/
def putSlot (s : Block) (c : CapCfg) (j o : Nat) (l : List Byte) : Block :=
  (l.zipIdx).foldl (fun s p => putSegByte s (seg s c.capseg) (slotOfs s c j (o + p.2)) p.1) (noteServed s 3)

/-- Word `i` of the header in record `j`'s slot. -/
def headWord (s : Block) (c : CapCfg) (j i : Nat) : Nat :=
  bytesNat ((List.range 4).map (fun b => segByte s (seg s c.capseg) (slotOfs s c j (4 * i + b))))

/-! ## Programs (R196, R197) -/

/-- Word `i` of state `x` of engine `t`'s program (0 the state word). -/
def progWord (s : Block) (t x i : Nat) : Nat :=
  (Tbl.get (fun _ => (0 : Word)) (cap s t).prog (17 * x + i)).toNat

/-- A condition of Table 09-7 in its four words. -/
structure Cond where
  w0 : Nat
  a  : Nat
  b  : Nat
  w3 : Nat
  deriving DecidableEq, Repr

/-- Condition `c` of state `x`. -/
def condAt (s : Block) (t x c : Nat) : Cond :=
  ⟨progWord s t x (1 + 4 * c), progWord s t x (2 + 4 * c), progWord s t x (3 + 4 * c),
   progWord s t x (4 + 4 * c)⟩

def cType (c : Cond) : Nat := natBits c.w0 3 0
def cMode (c : Cond) : Nat := natBits c.w0 5 4
def cUnit (c : Cond) : Nat := natBits c.w0 10 6
def cSel (c : Cond) : Nat := natBits c.w0 18 11
def cNext (c : Cond) : Nat := natBits c.w0 23 20
def cTrig (c : Cond) : Bool := c.w0.testBit 24
def cConsec (c : Cond) : Bool := c.w0.testBit 25
def cQual (c : Cond) : Nat := max 1 (natBits c.w3 15 0)

/-- A reserved encoding or a non-zero reserved bit in a condition. -/
def condBad (c : Cond) : Bool :=
  let ty := cType c
  let modeOk := match ty with
    | 1 => cMode c != 0
    | 2 => decide (cMode c ≤ 1)
    | 3 => cMode c == 1 || cMode c == 2
    | 5 => decide (cMode c ≤ 1)
    | _ => cMode c == 0
  let selOk := match ty with
    | 4 => decide (cSel c ≤ 191)
    | 5 => decide (cSel c ≤ 7)
    | 6 => decide (cSel c ≤ 1)
    | 7 => decide (cSel c ≤ 3)
    | _ => true
  let abOk := match ty with
    | 1 => c.a < 2 ^ 24
    | 2 => c.a < 2 ^ 24
    | 3 => natBits c.b 23 8 = 0 && natBits c.b 7 0 != 0
    | _ => true
  c.w0 &&& 0x03F7FFFF != c.w0 || decide (7 < ty) || !modeOk || !selOk || !abOk ||
    decide (2 ^ 24 ≤ c.b) || c.w3 &&& 0x0FFBFFFF != c.w3

/-- The units that the conditions of engine `t`'s program name (R188, R198). -/
def progUnits (s : Block) (t : Nat) : List Nat :=
  ((List.range (cap s t).nst).flatMap (fun x => (List.range 4).filterMap (fun c =>
    let k := condAt s t x c
    if cType k = 1 || cType k = 2 || cType k = 3 then some (cUnit k) else none))).dedup

/-- Units an engine references: members and those its program names. -/
def refUnits (s : Block) (t : Nat) : List Nat :=
  (capUnits (cap s t).cfg ++ progUnits s t).dedup

/-- Acquisition unit `n` belongs to an armed capture or is named by the program of an armed engine (R185). -/
def acqBound (s : Block) (n : Nat) : Bool :=
  (List.range 4).any (fun t => capArmed s t && (refUnits s t).contains n)

/-- The sample period of capture `t`. -/
def capPeriod (s : Block) (t : Nat) : Nat := 500 * 2 ^ getF s (tF t F.TRACK_CFG_ODR)

/-- D_max: the largest D_A among the units referenced. -/
def capDelay (s : Block) (t : Nat) : Nat := (refUnits s t).foldl (fun m n => max m (sampleDelay s n)) 0

/-! ## Conditions (R197) -/

/-- The firing of source `src` that a tick between `lo` (excluded) and `hi` counts: the first. -/
def firedIn (s : Block) (src lo hi : Nat) : Option (Nat × Nat × Nat) :=
  s.acq.fired.find? (fun e => e.1 == src && decide (lo < e.2.1) && decide (e.2.1 ≤ hi))

/-- What a history (newest first, each entry from its SYSTIME on) says of SYSTIME `t`. -/
def heldAt {α : Type} (l : List (Nat × α)) (t : Nat) (now : α) : α :=
  match l.find? (fun e => decide (e.1 ≤ t)) with
  | some e => e.2
  | none => now

/-- The applied levels of the Gyden lines at SYSTIME `t`. -/
def gevAt (s : Block) (t : Nat) : Nat := heldAt s.acq.gev t (getF s F.GYDEN_GEVLVL_APPLIED)

/-- Whether timing was traceable at SYSTIME `t`. -/
def tracedAt (s : Block) (t : Nat) : Bool := heldAt s.acq.traced t (flag s F.CLOCK_STATE_TRACEABLE)

/-- The SYSTIME before which no engine looks back: that of the tick before the next of each that runs, and the longest
sample period for one that starts now. -/
def lookBack (s : Block) : Nat :=
  ((List.range 4).filter (capRuns s)).foldl (fun m t => min m (((cap s t).tick - 1) * capPeriod s t))
    (s.sysTime - 1024000)

/-- A history without what holds before `a`. -/
def dropHeld {α : Type} (l : List (Nat × α)) (a : Nat) : List (Nat × α) :=
  l.filter (fun e => decide (a < e.1)) ++ (l.filter (fun e => decide (e.1 ≤ a))).take 1

/-- Firings, levels and marks that no engine will ask for again are forgotten. -/
def pruneAcq (s : Block) : Block :=
  let a := lookBack s
  { s with acq := { s.acq with
    fired := s.acq.fired.filter (fun e => decide (a < e.2.1))
    gev := dropHeld s.acq.gev a
    traced := dropHeld s.acq.traced a } }

/-- What condition `c` in slot `i` finds at tick `k` of engine `t`: whether it is true, and the armed state of
its rising and its falling detector after the tick. -/
def condTrue (s : Block) (t k i : Nat) (c : Cond) : Bool × Bool × Bool :=
  let cp := cap s t
  let p := capPeriod s t
  let v := wordVal (wordAt s (cUnit c) k)
  let th := signed 24 c.a
  let up := cp.rise.testBit i
  let dn := cp.fall.testBit i
  match cType c with
  | 1 =>
    let h : Int := (c.b : Int)
    let rT := (cMode c).testBit 0 && up && decide (th ≤ v)
    let fT := (cMode c).testBit 1 && dn && decide (v ≤ th)
    (rT || fT, !rT && (up || decide (v ≤ th - h)), !fT && (dn || decide (th + h ≤ v)))
  | 2 =>
    let inside := decide (th ≤ v) && decide (v ≤ signed 24 c.b)
    (inside != (cMode c == 1), false, false)
  | 3 =>
    let m := natBits c.b 7 0
    let old := (aunit s (cUnit c)).hist.find? (fun e => e.1 + m == k)
    match old with
    | none => (false, false, false)
    | some e =>
      let d := v - wordVal e.2
      ((if cMode c = 1 then decide ((c.a : Int) ≤ d) else decide (d ≤ -(c.a : Int))), false, false)
  | 4 => ((firedIn s (cSel c) ((k - 1) * p) (k * p)).isSome, false, false)
  | 5 => ((gevAt s (k * p)).testBit (cSel c) == (cMode c == 1), false, false)
  | 6 => (decide (c.a ≤ getF s ((tF t F.TRACK_TT0_TICKS).at (4 * cSel c))), false, false)
  | 7 => (decide (c.a ≤ getF s ((tF t F.TRACK_TC0_COUNT).at (4 * cSel c))), false, false)
  | _ => (false, false, false)

/-! ## Records (R189, Table 09-4) -/

/-- Header words of a list of numbers. -/
def headBytes (l : List Nat) : List Byte := l.flatMap (fun n => wordBytes (Word.ofNat n))

/-- The latency of member `u` of a group in ns. -/
def memberLatency (s : Block) (u : Nat) : Nat :=
  if u < 96 then getF s (uF u F.P_LAT_NS_NS)
  else getF s (lF (u - 96) F.LC_STATE_LAT) * unitT s u

/-- The frame of reference group `n` whose pin time is the last at or before `t`, with that pin time: none where
the group does not run or no frame has reached the pins. -/
def refFrame (s : Block) (n t : Nat) : Option (Nat × Nat) :=
  let q := seqr s n
  let p := groupT (group s n)
  let pin0 := q.t0 + (members s n).foldl (fun m u => max m (memberLatency s u)) 0
  if getF s (qF n F.SEQ_STATE_SSTATE) != 3 || decide (t < pin0) then none
  else some ((t - pin0) / p, pin0 + (t - pin0) / p * p)

/-- Collection for a slot begins (R189): its header block is cleared. -/
def newSlot (s : Block) (t : Nat) : Block :=
  let c := cap s t
  if c.cnt = 0 then putSlot s c.cfg c.recs 0 (List.replicate 64 0) else s

/-- The words of the trigger at tick `k` (header words 0 to 10, then TICK) into the TREC registers, and the
capture's header where a record begins. `path` and `mask` are PATH and word 8. -/
def trigWords (s : Block) (t k path mask : Nat) : List Nat × Block :=
  let c := cap s t
  let syst := k * capPeriod s t
  let frac := freeNat s 16
  let s := useFree s
  let fr := if c.cfg.fgrpEn then refFrame s c.cfg.fgrp syst else none
  let f := match fr with
    | some x => x.1
    | none => 0
  let fo := match fr with
    | some x => syst - x.2
    | none => 0
  let valid := c.cnt
  let pv := min c.cfg.pre valid
  let start := if c.cfg.pre = 0 then 0 else (valid - pv) % c.cfg.pre
  let f5 := f / 2 ^ 32 % 2 ^ 16 + b2n fr.isSome * 2 ^ 31
  let h := [c.recs, syst % 2 ^ 32, syst / 2 ^ 32, frac, f % 2 ^ 32, f5, fo, path, mask, pv, start, k % 2 ^ 32,
    k / 2 ^ 32 % 2 ^ 16]
  let s := set64 s (tF t F.TRACK_TREC_TIME_LO_SYST) (tF t F.TRACK_TREC_TIME_HI_SYST) syst
  let s := setF s (tF t F.TRACK_TREC_FRAC_FRAC) frac
  let s := set64 s (tF t F.TRACK_TREC_FRAME_LO_FRAME) (tF t F.TRACK_TREC_FRAME_HI_FRAME) f
  let s := setB s (tF t F.TRACK_TREC_FRAME_HI_FVALID) fr.isSome
  let s := setF (setF s (tF t F.TRACK_TREC_FOFS_NS) fo) (tF t F.TRACK_TREC_PATH_PATH) path
  (h, setF s (tF t F.TRACK_TREC_MASK_MASK) mask)

/-- The header of the record in course with `done` POST samples and the TRUNC flag, VALID set. -/
def headerOf (c : CapSt) (done : Nat) (trunc : Bool) : List Nat :=
  let w := fun i => c.head.getD i 0
  let oldest := c.cnt - done - w 9
  let hit := fun a => decide (oldest < a)
  let flags := b2n trunc + b2n (hit c.ovrAt) * 2 + b2n (hit c.missAt) * 4 + b2n (hit c.untrAt) * 8 +
    b2n (hit c.stepAt) * 16
  [w 0, w 1, w 2, w 3, w 4, w 5, w 6, w 7, w 8, w 9, w 10, done, flags, w 11, w 12,
   (capUnits c.cfg).length + 2 ^ 31]

/-- The record in course ends with `done` POST samples (R189, R191): the header is written, VALID last, and
under UP its block is to be copied again. -/
def closeRecord (s : Block) (t done : Nat) (trunc : Bool) : Block :=
  let c := cap s t
  let h := headerOf c done trunc
  let s := if (h.getD 12 0).testBit 2 then raise s (tF t F.TRACK_STATUS_MISS) else s
  let s := if (h.getD 12 0).testBit 3 then raise s (tF t F.TRACK_STATUS_UNTRACED) else s
  let s := putSlot s c.cfg c.recs 0 (headBytes h)
  let b := slotBytes c.cfg / 64
  let blk := c.recs * b
  let used := blk + 1 + ((c.cfg.pre + done) * (capUnits c.cfg).length * 4 + 63) / 64
  let s := if trunc then s else incF s (tF t F.TRACK_RECDONE_COUNT)
  let s := setF s (tF t F.TRACK_STATE_POSTP) 0
  setCap s t { c with
    recs := c.recs + 1, post := none, head := [], cnt := 0, ovrAt := 0, missAt := 0, untrAt := 0, stepAt := 0
    stored := if c.cfg.up then max c.stored used else 0
    again := if c.cfg.up then c.again ++ [(blk, used)] else [] }

/-- The capture ends: ESTATE `e` (3 DONE, 4 ABORTED), its open reduction windows cut, the gate level 0; at DONE
STATUS.DONE, and the state-change source fires where `ev` (R189, R195, R203). -/
def endCapture (s : Block) (t e : Nat) (ev : Bool) : Block :=
  let s := redCut s t
  let s := setF (setF s (tF t F.TRACK_STATE_ESTATE) e) (tF t F.TRACK_STATE_OUT) 0
  let s := setF s (tF t F.TRACK_STATE_POSTP) 0
  let c := cap s t
  let s := setCap s t { c with abort := false, forces := [], gaps := [], trun := 0, final := false }
  let s := if e = 3 then raise s (tF t F.TRACK_STATUS_DONE) else s
  let s := if ev then fire s (116 + t) 0 s.sysTime else s
  syncLevels s

/-- The words of tick `k` as they go to memory: `trig` in the trigger sample, all missing where the write outran
its buffer in a blackout (R263, R280). -/
def tickBytes (s : Block) (c : CapCfg) (k : Nat) (trig : Bool) : List Byte :=
  let late := match s.dramc.blackout with
    | some b => decide (b + 32000 ≤ s.now)
    | none => false
  (capUnits c).flatMap (fun n =>
    let w := if late then sampleWord 0 false true else wordAt s n k
    wordBytes (Word.ofNat (w + b2n trig * 64)))

/-- What the words of tick `k` leave to the record's flags: OVR, MISS, untraced timing at its sample instant, and a step
of the grid since the sample before (R193). -/
def noteFlags (s : Block) (t k : Nat) : Block :=
  let c := cap s t
  let l := (capUnits c.cfg).map (fun n => wordAt s n k)
  let late := match s.dramc.blackout with
    | some b => decide (b + 32000 ≤ s.now)
    | none => false
  let n := c.cnt + 1
  setCap s t { c with
    cnt := n
    ovrAt := if l.any wordOvr && !late then n else c.ovrAt
    missAt := if l.any wordMiss || late then n else c.missAt
    untrAt := if tracedAt s (k * capPeriod s t) then c.untrAt else n
    stepAt := if c.gaps.any (fun m => decide (m ≤ k)) then c.cnt else c.stepAt
    gaps := c.gaps.filter (fun m => decide (k < m)) }

/-- The lowest block that the upload still needs. -/
def upFloor (s : Block) (t : Nat) : Nat :=
  let c := cap s t
  let m := c.again.foldl (fun m p => min m p.1) c.sent
  if c.post.isSome then min m (c.recs * (slotBytes c.cfg / 64)) else m

/-- Writing bytes up to `o` of the present slot would reach a block not yet copied (R190). -/
def upFull (s : Block) (t o : Nat) : Bool :=
  let c := cap s t
  c.cfg.up && decide (upFloor s t + capBlocks s c.cfg ≤ c.recs * (slotBytes c.cfg / 64) + (o - 1) / 64)

/-- The upload buffer is full: the record in course is closed with TRUNC, and the capture ends (R190). A record that
would begin with a block not yet copied is none. -/
def upOverflow (s : Block) (t : Nat) (ev : Bool) : Block :=
  let c := cap s t
  let s := match c.post with
    | some n =>
      if c.cnt = 0 && upFull s t 64 then
        setCap s t { c with post := none, head := [], stored := min c.stored (c.recs * (slotBytes c.cfg / 64)) }
      else closeRecord s t n true
    | none => s
  endCapture (raise s (tF t F.TRACK_STATUS_UP_OVF)) t 3 ev

/-- The words of tick `k` go to the pre area. -/
def writePre (s : Block) (t k : Nat) : Block :=
  let c := cap s t
  let u := (capUnits c.cfg).length
  let o := 64 + (c.cnt % max 1 c.cfg.pre) * u * 4
  let s := if c.cfg.pre = 0 then s else putSlot s c.cfg c.recs o (tickBytes s c.cfg k false)
  noteFlags s t k

/-- The words of tick `k` go to the POST part as its sample `n`; the record ends with its last. -/
def writePost (s : Block) (t k n : Nat) : Block :=
  let c := cap s t
  let u := (capUnits c.cfg).length
  let o := 64 + (c.cfg.pre + n) * u * 4
  let s := noteFlags (putSlot s c.cfg c.recs o (tickBytes s c.cfg k (n == 0))) t k
  let c := cap s t
  let full := c.recs * (slotBytes c.cfg / 64) + 1 + (c.cfg.pre + n + 1) * u * 4 / 64
  let s := setCap s t { c with post := some (n + 1), stored := if c.cfg.up then max c.stored full else 0 }
  if n + 1 = c.cfg.post then closeRecord s t (n + 1) false else s

/-! ## A tick (R198 to R201) -/

/-- The outcome of a tick's conditions: TRUE, ELIG, the condition taken. -/
structure Verdict where
  truth : Nat
  elig  : Nat
  taken : Option Nat
  deriving DecidableEq, Repr

/-- Steps 1 and 2 of R198: conditions, detectors, qualifiers and CINC counters. -/
def evalConds (s : Block) (t k : Nat) : Block × Verdict :=
  let x := getF s (tF t F.TRACK_STATE_CUR)
  let cp := cap s t
  let res := (List.range 4).map (fun i => (i, condAt s t x i, condTrue s t k i (condAt s t x i)))
  let mask := fun (f : Nat × Cond × Bool × Bool × Bool → Bool) =>
    res.foldl (fun a r => a + b2n (f r) * 2 ^ r.1) 0
  let quals := res.map (fun r =>
    let q := cp.quals.getD r.1 0
    if r.2.2.1 then min 65535 (q + 1) else if cConsec r.2.1 then 0 else q)
  let elig := mask (fun r => r.2.2.1 && decide (cQual r.2.1 ≤ quals.getD r.1 0))
  let s := setCap s t { cp with quals := quals, rise := mask (fun r => r.2.2.2.1),
                                fall := mask (fun r => r.2.2.2.2) }
  let s := forEach res s (fun s r =>
    let w := r.2.1.w3
    if r.2.2.1 && w.testBit 19 then incSat s ((tF t F.TRACK_TC0_COUNT).at (4 * natBits w 17 16)) else s)
  (s, ⟨mask (fun r => r.2.2.1), elig, (List.range 4).find? (fun i => elig.testBit i)⟩)

/-- Step 3 of R198 and R199: the transition of condition `c`: clears, timers, the new state with its
qualifiers and detectors afresh. -/
def transit (s : Block) (t : Nat) (c : Cond) : Block :=
  let s := forEach (bitList (natBits c.w3 23 20) 4) s (fun s i =>
    setF s ((tF t F.TRACK_TC0_COUNT).at (4 * i)) 0)
  let go := natBits c.w3 25 24
  let cp := cap s t
  let kept := cp.trun - (cp.trun &&& natBits c.w3 27 26)
  let s := forEach (bitList go 2) s (fun s i => setF s ((tF t F.TRACK_TT0_TICKS).at (4 * i)) 0)
  let x := cNext c
  let fin := (progWord s t x 0).testBit 0
  let s := setCap s t { cp with trun := kept ||| go, quals := [0, 0, 0, 0], rise := 0, fall := 0,
                                path := (cp.path * 16 + x) % 2 ^ 32, plen := min 255 (cp.plen + 1),
                                final := cp.final || fin }
  let s := setF s (tF t F.TRACK_STATE_CUR) x
  setB s (tF t F.TRACK_STATE_OUT) ((progWord s t x 0).testBit 1)

/-- Step 4 of R198: running timers advance. -/
def runTimers (s : Block) (t : Nat) : Block :=
  forEach (bitList (cap s t).trun 2) s (fun s i => incSat s ((tF t F.TRACK_TT0_TICKS).at (4 * i)))

/-- A trigger at tick `k` (R189, R201): event, counters, TREC; a record where none is in course. -/
def doTrigger (s : Block) (t k hop path mask : Nat) (inPost : Bool) : Block :=
  let s := fireBy s (112 + t) hop s.sysTime (116 + t)
  let s := raise (incF s (tF t F.TRACK_TRIGS_COUNT)) (tF t F.TRACK_STATUS_TRIG)
  let r := trigWords s t k path mask
  let s := r.2
  if inPost then raise (incF s (tF t F.TRACK_TSKIP_COUNT)) (tF t F.TRACK_STATUS_TRIG_OVR)
  else
    let c := cap s t
    let s := setCap s t { c with head := r.1, post := some 0 }
    let s := setF s (tF t F.TRACK_STATE_POSTP) 1
    if c.cfg.up then
      let c := cap s t
      let u := (capUnits c.cfg).length
      let n := c.recs * (slotBytes c.cfg / 64) + 1 + c.cfg.pre * u * 4 / 64
      setCap s t { c with stored := max c.stored n }
    else s

/-- The hop count of what condition `c` leads to at tick `k` (R201). -/
def condHop (s : Block) (t k : Nat) (c : Cond) : Nat :=
  let p := capPeriod s t
  if cType c = 4 then
    match firedIn s (cSel c) ((k - 1) * p) (k * p) with
    | some e => e.2.2 + 1
    | none => 0
  else 0

/-- The trigger, if any, the transition and the timers of tick `k`. -/
def tickMachine (s : Block) (t k : Nat) : Block :=
  let x := getF s (tF t F.TRACK_STATE_CUR)
  let force := (cap s t).forces.find? (fun f => f.1 == k)
  let s := setCap s t { cap s t with forces := (cap s t).forces.filter (fun f => decide (k < f.1)) }
  let inPost := (cap s t).post.isSome
  let r := evalConds s t k
  let s := r.1
  let v := r.2
  let tc := v.taken.map (fun i => (i, condAt s t x i))
  let ch := match tc with
    | some c => condHop s t k c.2
    | none => 0
  let trig := force.isSome || (match tc with
    | some c => cTrig c.2
    | none => false)
  let byCond := match tc with
    | some c => cTrig c.2
    | none => false
  let s := match tc with
    | some c =>
      let s := transit s t c.2
      if cNext c.2 = x then s else fireBy s (116 + t) ch s.sysTime (116 + t)
    | none => s
  let c := cap s t
  let path := if tc.isSome then c.path else (c.path * 16 + x) % 2 ^ 32
  let cond := match tc with
    | some c => c.1
    | none => 0
  let mask := v.truth + v.elig * 2 ^ 4 + cond * 2 ^ 8 + b2n force.isSome * 2 ^ 10 + c.plen * 2 ^ 24
  let hop := match force with
    | some f => if byCond then max f.2 ch else f.2
    | none => ch
  let s := if trig then doTrigger s t k hop path mask inPost else s
  runTimers s t

/-- The bytes of the slot that are written once a tick's words are stored, for the upload's room: header, the pre area
as far as it was collected, the POST samples. -/
def tickReach (s : Block) (t : Nat) : Nat :=
  let c := cap s t
  let u := (capUnits c.cfg).length
  match c.post with
  | some n => 64 + (c.cfg.pre + n + 1) * u * 4
  | none => 64 + min c.cfg.pre (c.cnt + 1) * u * 4

/-- Tick `k` of engine `t` (R198): conditions, trigger, transition, the writer, the end of the capture. Under UP a tick
whose words would reach a block not yet copied ends the capture (R190). -/
def runTick (s : Block) (t k : Nat) : Block :=
  let s := set64 s (tF t F.TRACK_TICK_LO_TICK) (tF t F.TRACK_TICK_HI_TICK) k
  let before := getF s (tF t F.TRACK_STATE_CUR)
  let s := tickMachine s t k
  let s := setCap s t { cap s t with tick := k + 1 }
  let same := getF s (tF t F.TRACK_STATE_CUR) == before
  if upFull s t (tickReach s t) then upOverflow s t same
  else
    let s := newSlot s t
    let s := match (cap s t).post with
      | some n => writePost s t k n
      | none => writePre s t k
    let c := cap s t
    let s :=
      if c.post.isNone && (c.final || decide (c.cfg.records ≤ getF s (tF t F.TRACK_RECDONE_COUNT))) then
        endCapture s t 3 same
      else s
    pruneAcq (syncLevels s)

/-- ACQ_ABORT takes effect (R191): a record in course is closed with TRUNC, and the engine is ABORTED. -/
def abortCapture (s : Block) (t : Nat) : Block :=
  let s := match (cap s t).post with
    | some n => closeRecord s t n true
    | none => s
  endCapture s t 4 false

/-- An ACQ_ABORT that waited for capture `t` to end completes. -/
def settleAborts (s : Block) (t : Nat) : Block :=
  s.cmd.jobs.foldl (fun s j =>
    if j.op = Op.acqAbort && pb j.p 1 1 0 = t && !capArmed s t then endJob s j Sts.ok 0 else s) s

/-- The tick that follows: those in SYSTIME that a forward step skipped are no ticks (R249). -/
def nextTick (s : Block) (t k : Nat) : Nat :=
  let p := capPeriod s t
  if tickSkipped s k p then (s.clock.skipTo + p - 1) / p else k

/-- TRACK_TICK (R198): the next tick of a running engine, once the words of every unit it references have come. A
waiting ACQ_ABORT ends the capture at its first tick (R191). -/
def effTrackTick (t : Nat) (s : Block) : Out :=
  withIdx 4 t <|
    let c := cap s t
    let k := nextTick s t c.tick
    if !capRuns s t || decide (s.sysTime < k * capPeriod s t + capDelay s t) ||
        (refUnits s t).any (fun n => decide ((aunit s n).next ≤ k)) then .next s
    else .next (settleAborts (if c.abort then abortCapture s t else runTick s t k) t)

/-! ## Arming and forcing (R202) -/

/-- Engine `t` runs from the first tick whose sample instant lies after `e`. -/
def startEngine (s : Block) (t e : Nat) : Block :=
  let k := e / capPeriod s t + 1
  let s := setCap s t { cap s t with tick := k, first := k }
  let s := setF s (tF t F.TRACK_STATE_ESTATE) 2
  syncLevels (setB s (tF t F.TRACK_STATE_OUT) ((progWord s t 0 0).testBit 1))

/-- An event on the ARM sink of engine `t` at SYSTIME `e`. -/
def armEvent (s : Block) (t e : Nat) : Block :=
  if getF s (tF t F.TRACK_STATE_ESTATE) = 1 then startEngine s t e
  else raise s (tF t F.TRACK_STATUS_AOVR)

/-- A FORCE of engine `t` at SYSTIME `e` whose trigger has hop count `hop`: applied at the tick k with t_(k−1) < e ≤ t_k; one that
no tick can take, or a second for one tick, is dropped. -/
def forceEvent (s : Block) (t e hop : Nat) : Block :=
  let p := capPeriod s t
  let k := (e + p - 1) / p
  let c := cap s t
  if !capRuns s t || decide (k < c.tick) || c.forces.any (fun f => f.1 == k) then
    raise s (tF t F.TRACK_STATUS_FOVR)
  else setCap s t { c with forces := c.forces ++ [(k, hop)] }

/-! ## Upload (R190) -/

/-- Where block `b` of an upload lies in CAPSEG. -/
def blockOfs (s : Block) (c : CapSt) (b : Nat) : Nat := (b % max 1 (capBlocks s c.cfg)) * 64

/-- A block copied to the host ring of capture `t`: block `b` of the upload. -/
def sendBlock (s : Block) (t b : Nat) : Block :=
  let c := cap s t
  let src := blockOfs s c b
  let dst := (c.upBase + b * 64) % 2 ^ c.cfg.upSize
  let l := segBytes s (seg s c.cfg.capseg) src 64
  { s with cmd := { s.cmd with hostMem := putBytes s.cmd.hostMem (c.cfg.upAddr + dst) l } }

/-- UPLOAD_BLOCK (R190): a header block of an ended record is copied again, or the next stored block is copied
where the host ring has room; with bus mastering off nothing is copied (R385). -/
def effUploadBlock (t : Nat) (s : Block) : Out :=
  withIdx 4 t <|
    let c := cap s t
    let w := getF s (tF t F.TRACK_UP_WPTR_OFS)
    let nw := (w + 64) % 2 ^ c.cfg.upSize
    if !c.cfg.up || dramBad s || dramStalled s || !s.boot.pcieUp then .next s
    else
      match c.again.find? (fun p => decide (p.2 ≤ c.sent)) with
      | some p =>
        let s := checkSeg s 9 t 0 c.cfg.capseg (blockOfs s c p.1) 64
        .next (if ueMet s then s else setCap (sendBlock s t p.1) t { c with again := c.again.erase p })
      | none =>
        if c.stored ≤ c.sent || nw = getF s (tF t F.TRACK_UP_RPTR_OFS) / 64 * 64 then .next s
        else
          let s := checkSeg s 9 t 0 c.cfg.capseg (blockOfs s c c.sent) 64
          if ueMet s then .next s
          else
            let s := sendBlock s t c.sent
            .next (setF (setCap s t { c with sent := c.sent + 1 }) (tF t F.TRACK_UP_WPTR_OFS) nw)

/-! ## The meanings -/

/-- TRACK_TICK (R198), done to the block; the queue stays. -/
def execTrackTick (t : Nat) (s : State) : Host.Outcome State Fault Refusal :=
  onBlock s (effTrackTick t)

end Sys2Proof.Machine
end

