-- ==== Sys2Proof/Machine/AcqCommands.lean ====
section
/-! DEFINITION. The acquisition commands (R186, R188, R191, R192, R196). -/

namespace Sys2Proof.Machine

/-! ## ACQ_CONFIG (R186) -/

/-- The registers that mirror a configuration (R206). -/
def mirrorConfig (s : Block) (t : Nat) (c : CapCfg) (on : Bool) : Block :=
  let s := setB s (tF t F.TRACK_STATE_CONFIGURED) on
  let s := setF s (tF t F.TRACK_UNITS_MASK) c.units
  let s := setF (setF s (tF t F.TRACK_SEGS_CAPSEG) c.capseg) (tF t F.TRACK_SEGS_REDSEG) c.redseg
  let s := setF (setF s (tF t F.TRACK_PRE_COUNT) c.pre) (tF t F.TRACK_POST_COUNT) c.post
  let s := setF s (tF t F.TRACK_RECORDS_COUNT) c.records
  let s := setB (setB s (tF t F.TRACK_CFG_RED_EN) c.redEn) (tF t F.TRACK_CFG_UP) c.up
  setF (setB s (tF t F.TRACK_CFG_FGRP_EN) c.fgrpEn) (tF t F.TRACK_CFG_FGRP) c.fgrp

/-- Membership as A.STATUS shows it. -/
def setInCap (s : Block) (n : Nat) (t : Option Nat) : Block :=
  let s := setB s (aF n F.A_STATUS_IN_CAP) t.isSome
  setF s (aF n F.A_STATUS_CAP) (t.getD 0)

/-- Capture `t` takes configuration `c`, or none. -/
def configure (s : Block) (t : Nat) (c : CapCfg) (on : Bool) : Block :=
  let s := forEach (capUnits (cap s t).cfg) s (fun s n => setInCap s n none)
  let s := forEach (capUnits c) s (fun s n => setInCap s n (some t))
  let x := cap s t
  let s := setCap s t { x with cfg := c, sent := 0, stored := 0, upBase := 0, again := [], recs := 0 }
  let s := setF (setF s (tF t F.TRACK_UP_WPTR_OFS) 0) (tF t F.TRACK_UP_RPTR_OFS) 0
  mirrorConfig s t c on

/-- ACQ_CONFIG's checks and effect. -/
def acqConfigBody (h : Hdr) (s : Block) (p : List Word) : CmdRes :=
  let t := pb p 1 1 0
  let up := pb p 1 16 16 = 1
  let red := pb p 1 17 17 = 1
  let clear := pb p 1 31 31 = 1
  let c : CapCfg := {
    fgrp := pb p 1 11 8, fgrpEn := decide (pb p 1 12 12 = 1), up := decide up, redEn := decide red,
    units := pw p 2, capseg := pb p 3 15 0, redseg := if red then pb p 3 31 16 else 0, pre := pw p 4,
    post := pw p 5, records := pw p 6, upAddr := if up then pw64 p 7 else 0,
    upSize := if up then pb p 9 4 0 else 0 }
  let size := pb p 9 4 0
  notInBoot s <|
    if capArmed s t then .fail s Sts.state
    else if (capUnits c).any (fun n => flag s (aF n F.A_STATUS_IN_CAP) &&
        getF s (aF n F.A_STATUS_CAP) != t) then .fail s Sts.state
    else if clear then
      if c.units = 0 then .okay (configure s t {} false) else .fail s Sts.badParam
    else if c.units = 0 || decide (16777215 < c.pre) || c.post = 0 || c.records = 0 ||
        decide (65536 < c.records) then .fail s Sts.badParam
    else if up && (inWindow s h.ring || c.upAddr % 4096 != 0 || decide (size < 16)) then
      .fail s Sts.badParam
    else .okay (configure s t { c with upSize := if up then size else 0 } true)

/-- ACQ_CONFIG (0x40). -/
def effAcqConfig (h : Hdr) (p : List Word) (s : Block) : Out :=
  runCmd s h 0x40 p [] (· == 10)
    [0x80031F03, 0xFFFFFFFF, 0xFFFFFFFF, 0xFFFFFF, 0xFFFFFFFF, 0x1FFFF, 0xFFFFFFFF, 0xFFFFFFFF, 0x1F]
    (acqConfigBody h)

/-! ## TRACK_LOAD (R196) -/

/-- The 17 words of state `i` of the data. -/
def loadState (l : List Word) (i : Nat) : List Nat :=
  ((l.drop (17 * i)).take 17).map (fun w => w.toNat)

/-- A reserved bit or encoding in a state's words. -/
def stateBad (l : List Nat) : Bool :=
  decide (3 < l.getD 0 0) || (List.range 4).any (fun c =>
    condBad ⟨l.getD (1 + 4 * c) 0, l.getD (2 + 4 * c) 0, l.getD (3 + 4 * c) 0, l.getD (4 + 4 * c) 0⟩)

/-- TRACK_LOAD's checks and effect. -/
def trackLoadBody (h : Hdr) (d : List Word) (s : Block) (p : List Word) : CmdRes :=
  let t := pb p 1 1 0
  let first := pb p 1 11 8
  let n := pb p 1 15 12 + 1
  let src := pb p 1 24 24 = 1
  let l := if src then (d ++ List.replicate (17 * n) 0).take (17 * n) else p.drop 1
  let count := if src then p.length == 3 else p.length == 1 + 17 * n
  let given := (p.length - 1) / 17
  if !src && (List.range given).any (fun i => stateBad (loadState (p.drop 1) i)) then .fail s Sts.badParam
  else notInBoot s <|
    if capArmed s t then .fail s Sts.state
    else if !count || decide (16 < first + n) || (src && inWindow s h.ring) ||
        (List.range n).any (fun i => stateBad (loadState l i)) then .fail s Sts.badParam
    else
      let c := cap s t
      let prog := (List.range (17 * n)).foldl (fun m i =>
        Tbl.set (fun _ => (0 : Word)) m (17 * first + i) (l.getD i 0)) c.prog
      let s := setCap s t { c with prog := prog, nst := pb p 1 19 16 + 1 }
      .okay (setF s (tF t F.TRACK_STATE_LOADED) 1)

/-- TRACK_LOAD (0x41). -/
def effTrackLoad (h : Hdr) (p d : List Word) (s : Block) : Out :=
  runCmd s h 0x41 p d (fun n => decide (2 ≤ n)) [0x10FFF03] (trackLoadBody h d)

/-! ## ACQ_ARM (R188) -/

/-- A segment in which capture `t` may not arm: no CAPTURE segment with every page mapped, or one that another
armed capture uses. -/
def armSegBad (s : Block) (id : Nat) : Bool :=
  (seg s id).st != 6 || !fullyMapped s (seg s id) || capArmedOn s id

/-- A failed check with its result word. -/
def CmdRes.failR (s : Block) (status result : Nat) : CmdRes := .done s status 0 1 result

/-- The counts of an arm cleared, and the engine in state 0. -/
def clearArm (s : Block) (t : Nat) : Block :=
  let z := fun (s : Block) (f : Fld) => setF s (tF t f) 0
  let s := z (z (z s F.TRACK_RECDONE_COUNT) F.TRACK_TRIGS_COUNT) F.TRACK_TSKIP_COUNT
  let s := z (z (z s F.TRACK_RED_WPTR_OFS) F.TRACK_RED_WRAPS_COUNT) F.TRACK_STATE_CUR
  let s := forEach (List.range 4) s (fun s i => z s (F.TRACK_TC0_COUNT.at (4 * i)))
  let s := forEach (List.range 2) s (fun s i => z s (F.TRACK_TT0_TICKS.at (4 * i)))
  let c := cap s t
  setCap s t { cfg := c.cfg, prog := c.prog, nst := c.nst, quals := [0, 0, 0, 0],
               upBase := getF s (tF t F.TRACK_UP_WPTR_OFS) }

/-- ACQ_ARM's checks in order, and its effect. -/
def acqArmBody (s : Block) (p : List Word) : CmdRes :=
  let t := pb p 1 1 0
  let ev := pb p 1 8 8 = 1
  let c := cap s t
  let us := (List.range 32).filter (fun n => (refUnits s t).contains n)
  let odr := fun n => getF s (aF n F.A_CTRL_ODR)
  notInBoot s <| needsDram s (dramBad s) <|
    if !flag s (tF t F.TRACK_STATE_CONFIGURED) || c.nst = 0 || capArmed s t then .fail s Sts.state
    else
      match us.find? (fun n => calNamed s (64 + n)) with
      | some n => .failR s Sts.state (64 + n)
      | none =>
      match us.find? (fun n => !flag s (aF n F.A_CTRL_EN) || odr n != odr (us.headD 0)) with
      | some n => .failR s Sts.badParam (64 + n)
      | none =>
      match ((List.range c.nst).flatMap (fun x => (List.range 4).map (fun i => cNext (condAt s t x i)))).find?
          (fun x => decide (c.nst ≤ x)) with
      | some x => .failR s Sts.badParam x
      | none =>
        if armSegBad s c.cfg.capseg then .failR s Sts.state c.cfg.capseg
        else if c.cfg.redEn && armSegBad s c.cfg.redseg then .failR s Sts.state c.cfg.redseg
        else
          let size := segSize (seg s c.cfg.capseg)
          if !c.cfg.up && decide (size < c.cfg.records * slotBytes c.cfg) then
            .failR s Sts.depth c.cfg.capseg
          else if c.cfg.up && decide (size < 65536) then .failR s Sts.badParam c.cfg.capseg
          else
            let s := clearArm s t
            let s := setF (setB s (tF t F.TRACK_CFG_EVARM) (decide ev)) (tF t F.TRACK_CFG_ODR)
              (odr (us.headD 0))
            if ev then .okay (setF s (tF t F.TRACK_STATE_ESTATE) 1)
            else .okay (startEngine s t s.sysTime)

/-- ACQ_ARM (0x42). -/
def effAcqArm (h : Hdr) (p : List Word) (s : Block) : Out :=
  runCmd s h 0x42 p [] (· == 2) [0x103] acqArmBody

/-! ## ACQ_ABORT (R191) -/

/-- ACQ_ABORT: of a running capture at its next tick, of a waiting one at once, of any other nothing. -/
def acqAbortBody (s : Block) (p : List Word) : CmdRes :=
  let t := pb p 1 1 0
  notInBoot s <|
    if capRuns s t then .wait (setCap s t { cap s t with abort := true }) [] 0 0
    else if capArmed s t then .okay (abortCapture s t)
    else .okay s

/-- ACQ_ABORT (0x43). -/
def effAcqAbort (h : Hdr) (p : List Word) (s : Block) : Out :=
  runCmd s h 0x43 p [] (· == 2) [3] acqAbortBody

/-! ## ACQ_READOUT (R192) -/

/-- Records of one readout are this long. -/
def readoutSize (s : Block) (p : List Word) : Nat :=
  if pb p 1 8 8 = 1 then 32 else slotBytes (cap s (pb p 1 1 0)).cfg

/-- Record `j` of capture `t` as it is copied: the pre area rotated so that the oldest valid sample comes first,
PRE_START 0; none where it is not complete. -/
def linearRecord (s : Block) (t j : Nat) : Option (List Byte) :=
  let c := cap s t
  let w := headWord s c.cfg j
  if c.recs ≤ j || w 0 != j || w 15 < 2 ^ 31 then none
  else
    let u := 4 * (capUnits c.cfg).length
    let g := seg s c.cfg.capseg
    let at' := fun o => segByte s g (slotOfs s c.cfg j o)
    let pre := c.cfg.pre * u
    let st := w 10 * u
    some ((List.range (slotBytes c.cfg)).map (fun o =>
      if 40 ≤ o && o < 44 then 0
      else if 64 ≤ o && o < 64 + pre then at' (64 + (o - 64 + st) % pre)
      else at' o))

/-- Reduction record `j` since the arm, where it is written and not overwritten. -/
def redRecord (s : Block) (t j : Nat) : Option (List Byte) :=
  let g := seg s (cap s t).cfg.redseg
  let n := segSize g / 32
  let total := getF s (tF t F.TRACK_RED_WRAPS_COUNT) * n + getF s (tF t F.TRACK_RED_WPTR_OFS) / 32
  if n = 0 || decide (total ≤ j) || decide (j + n < total) then none
  else some (segBytes s g (j % n * 32) 32)

/-- The microengine's reads of record `i` of a readout, checked (R258). -/
def readoutCheck (s : Block) (p : List Word) (i : Nat) : Block :=
  let c := (cap s (pb p 1 1 0)).cfg
  let j := pw p 2 + i
  if pb p 1 8 8 = 1 then
    let g := seg s c.redseg
    checkSeg s 8 0 0 c.redseg (j % max 1 (segSize g / 32) * 32) 32
  else
    let g := seg s c.capseg
    checkRead s 8 0 0 (some c.capseg) (fun w =>
      (List.range (slotBytes c / 64)).any (fun b => wordIn s g (slotOfs s c j (64 * b)) 64 w))

/-- One record copied (step `i`), or none where it is not there. -/
def readoutOne (s : Block) (h : Hdr) (p : List Word) (i : Nat) : Option Block :=
  let t := pb p 1 1 0
  let j := pw p 2 + i
  let r := if pb p 1 8 8 = 1 then redRecord s t j else linearRecord s t j
  r.map (fun l => toHost s h (pw64 p 4 + i * readoutSize s p) l)

/-- ACQ_READOUT's checks and first record. -/
def acqReadoutBody (h : Hdr) (s : Block) (p : List Word) : CmdRes :=
  notInBoot s <| needsDram s (dramBad s) <|
    if !destOk s h (pw64 p 4) (pw p 3 * readoutSize s p) then .fail s Sts.badParam
    else if pw p 3 = 0 then .okay s
    else
      let s := readoutCheck s p 0
      if ueMet s then .fail s Sts.dramFrozen
      else
        match readoutOne s h p 0 with
        | none => .done s Sts.partially 0 0 0
        | some s => if pw p 3 = 1 then .okay s else .more s 1 0 [1]

/-- ACQ_READOUT (0x44). -/
def effAcqReadout (h : Hdr) (p : List Word) (s : Block) : Out :=
  runCmd s h 0x44 p [] (· == 6) [0x103, 0xFFFFFFFF, 0xFFFFFFFF, 0xFFFFFFFF, 0xFFFFFFFF] (acqReadoutBody h)

/-- A later step of ACQ_READOUT: one record more. -/
def readoutContinue (s : Block) (j : Job) : Block :=
  let i := j.todo.headD 0
  if dramBad s then endJob s j Sts.dramFrozen 0
  else
    let s := readoutCheck s j.p i
    if ueMet s then endJob s j Sts.dramFrozen 0
    else
      match readoutOne s j.h j.p i with
      | none => endJob s j Sts.partially 0
      | some s =>
        let k := { j with steps := i + 1, todo := [i + 1] }
        if i + 1 < pw j.p 3 then putJob s j k else endJob (putJob s j k) k Sts.ok 0

/-! ## The meanings -/

/-- ACQ_CONFIG (0x40), done to the block; the queue stays. -/
def execAcqConfig (h : Hdr) (p : List Word) (s : State) : Host.Outcome State Fault Refusal :=
  onBlock s (effAcqConfig h p)

/-- TRACK_LOAD (0x41), done to the block; the queue stays. -/
def execTrackLoad (h : Hdr) (p d : List Word) (s : State) : Host.Outcome State Fault Refusal :=
  onBlock s (effTrackLoad h p d)

/-- ACQ_ARM (0x42), done to the block; the queue stays. -/
def execAcqArm (h : Hdr) (p : List Word) (s : State) : Host.Outcome State Fault Refusal :=
  onBlock s (effAcqArm h p)

/-- ACQ_ABORT (0x43), done to the block; the queue stays. -/
def execAcqAbort (h : Hdr) (p : List Word) (s : State) : Host.Outcome State Fault Refusal :=
  onBlock s (effAcqAbort h p)

end Sys2Proof.Machine
end

