-- ==== Sys2Proof/Machine/Admission.lean ====
section
/-! DEFINITION. PAC_RESERVE, PAC_RELEASE, the end of a request's timeout, and the package cap (R29, R362, R365,
Table 16-5). -/

namespace Sys2Proof.Machine

/-- The hierarchy index of a request on ledger `l` alone (R361). -/
def ledgerIdx (l : Nat) : Nat :=
  if l < 4 then 104 + l else if l = 4 then 108 else if l = 5 then 109 else if l = 6 then 110 else 111

/-- When a PAC_RESERVE's wait ends: its TIMEOUT in ms, 0 for QCFG.TO_CMD. -/
def reserveDue (s : Block) (p : List Word) : Nat :=
  s.now + (if pb p 3 15 0 = 0 then toCmd s else pb p 3 15 0 * 1000000)

/-- The unit form: a range grant. -/
def reserveUnit (h : Hdr) (s : Block) (p : List Word) : CmdRes :=
  let u := pb p 1 6 0
  let code := pb p 1 11 8
  if !rangeOk u code then .fail s Sts.badParam
  else if grantNeed s u code = 0 then .okay (setB s (uF u F.P_STATE_GRANT) true)
  else
    let a := pacAsk s (unitRequest s h u code u (reserveDue s p)) (pb p 1 21 21 == 1)
    match a.2 with
    | .grant => .okay a.1
    | .deny => .failD a.1 Sts.powerDenied u
    | .queue => .wait a.1 [0] 0 0

/-- The handle form: an amount on one ledger. -/
def reserveHandle (h : Hdr) (s : Block) (p : List Word) : CmdRes :=
  let k := pb p 1 18 16
  let l := pb p 2 18 16
  let amt := pb p 2 15 0
  let bg := pb p 1 20 20 = 1
  if amt = 0 || decide (2200 < amt) then .fail s Sts.badParam
  else if (handle s k).st != 0 then .fail s Sts.busy
  else
    let r : PacReq :=
      ⟨if bg then 0 else 1, ledgerIdx l, [(l, amt)], .handle k, h.ring, s.cmd.cur, reserveDue s p⟩
    let t := setHandle s k ⟨1, bg, l, amt⟩
    let a := pacAsk t r (pb p 1 21 21 == 1)
    match a.2 with
    | .grant => .okay a.1
    | .deny => .failD (setHandle a.1 k {}) Sts.powerDenied (ledgerIdx l)
    | .queue => .wait a.1 [0] 0 0

/-- PAC_RESERVE's checks and effect. -/
def pacReserveBody (h : Hdr) (s : Block) (p : List Word) : CmdRes :=
  let u := pb p 1 6 0
  notInBoot s <|
    if u = 0x7F then reserveHandle h s p
    else if u < 64 then reserveUnit h s p
    else .fail s Sts.badParam

/-- PAC_RESERVE (0x78). -/
def effPacReserve (h : Hdr) (p : List Word) (s : Block) : Out :=
  runCmd s h Op.pacReserve p [] (· == 4) [0x370F7F, 0x7FFFF, 0xFFFF] (pacReserveBody h)

/-- The queued request of a PAC_RESERVE that `mine` describes is withdrawn, its handle is free, and its command
completes ABORTED. -/
def withdraw (s : Block) (r : PacReq) : Block :=
  let s := freeHandleOf (setQueue s (s.sys.queue.erase r)) r
  match s.cmd.jobs.find? (fun j => j.id == r.id && j.op == Op.pacReserve) with
  | some j => pacVisit (endJob s j Sts.aborted 0)
  | none => s

/-- A queued request of a PAC_RESERVE for `o`. -/
def queuedReserve (s : Block) (o : PacOwner) : Option PacReq :=
  s.sys.queue.find? (fun r => decide (r.owner = o) && s.cmd.jobs.any (fun j =>
    j.id == r.id && j.op == Op.pacReserve))

/-- The active range of unit `u`, or its programmed RANGE.SEL, needs the grant above the floor. -/
def grantNeeded (s : Block) (u : Nat) : Bool :=
  let x := unit s u
  decide (x.floor < rangePac u x.rng) || decide (x.floor < rangePac u (getPF s (uF u F.P_RANGE_SEL)))

/-- PAC_RELEASE's checks and effect. -/
def pacReleaseBody (s : Block) (p : List Word) : CmdRes :=
  let u := pb p 1 6 0
  let k := pb p 1 18 16
  notInBoot s <|
    if u = 0x7F then
      match queuedReserve s (.handle k) with
      | some r => .okay (settleJobs (withdraw s r))
      | none =>
        let x := handle s k
        if x.st = 2 then .okay (settleJobs (pacRelease (setHandle s k {}) x.ledger x.amount)) else .okay s
    else if u < 64 then
      match queuedReserve s (.unit u) with
      | some r => .okay (settleJobs (withdraw s r))
      | none =>
        let x := unit s u
        if x.grant = 0 then .okay s
        else if grantNeeded s u then .fail s Sts.state
        else
          let s := setB (setUnit s u { x with grant := 0 }) (uF u F.P_STATE_GRANT) false
          .okay (settleJobs (pacRelease s (regionOf u) x.grant))
    else .fail s Sts.badParam

/-- PAC_RELEASE (0x79). -/
def effPacRelease (h : Hdr) (p : List Word) (s : Block) : Out :=
  runCmd s h 0x79 p [] (· == 2) [0x7007F] pacReleaseBody

/-- A request whose timeout has ended is withdrawn. -/
def expire (s : Block) (r : PacReq) : Block :=
  let l := (tooTight s r.amts ++ r.amts.map (fun a => a.1)).headD 7
  let s := pacRefuse (setQueue s (s.sys.queue.erase r)) Sts.powerTimeout l r.idx
  markRefused (freeHandleOf s r) r Sts.powerTimeout

/-- PAC_TIMEOUT (R362): every queued request whose timeout has ended is withdrawn, and its command ends. -/
def effPacTimeout (s : Block) : Out :=
  let late := s.sys.queue.filter (fun r => decide (r.due ≤ s.now))
  if late.isEmpty then .next s else .next (settleJobs (pacVisit (forEach late s expire)))

/-- PKG_CAP written (R29): the queue is visited under the new cap; a cap below the total sets DEFER. -/
def capWritten (s : Block) : Block :=
  let s := if pkgCap s < ledgerTotal s 7 then raise s F.POWER_STATUS_DEFER else s
  settleJobs (pacVisit s)

/-! ## The meanings -/

/-- PAC_RESERVE (0x78), done to the block; the queue stays. -/
def execPacReserve (h : Hdr) (p : List Word) (s : State) : Host.Outcome State Fault Refusal :=
  onBlock s (effPacReserve h p)

/-- PAC_RELEASE (0x79), done to the block; the queue stays. -/
def execPacRelease (h : Hdr) (p : List Word) (s : State) : Host.Outcome State Fault Refusal :=
  onBlock s (effPacRelease h p)

/-- PAC_TIMEOUT (R362), done to the block; the queue stays. -/
def execPacTimeout (s : State) : Host.Outcome State Fault Refusal :=
  onBlock s (effPacTimeout)

end Sys2Proof.Machine
end

