-- ==== Sys2Proof/Machine/Lift.lean ====
section
/-! DEFINITION. LIFT (R114 to R117), the host window (R118) and the snapshots of R123. -/

namespace Sys2Proof.Machine

/-! ## Descriptors (Table 05-5) -/

/-- Word `i` of the descriptor in course. -/
def ldWord (x : LiftCh) (i : Nat) : Nat := (x.desc.getD i 0).toNat

/-- Target, OFFSET, LENGTH and flags of the descriptor. -/
def ldSeg (x : LiftCh) : Nat := ldWord x 1 % 65536
def ldOfs (x : LiftCh) : Nat := ldWord x 2
def ldLen (x : LiftCh) : Nat := ldWord x 3
def ldLast (x : LiftCh) : Bool := (ldWord x 0).testBit 0
def ldWait (x : LiftCh) : Bool := (ldWord x 0).testBit 1
def ldSeal (x : LiftCh) : Bool := (ldWord x 0).testBit 2

/-- A reserved flag, a misaligned field, or a length outside 64 B to 64 MiB (R115 check 1); an address that is not a
multiple of 32, and non-zero reserved bits of word 1, count with them (DESIGN CHOICE, log entry 11). -/
def ldBad (x : LiftCh) : Bool :=
  x.addr % 32 != 0 || natBits (ldWord x 0) 15 3 != 0 || ldWord x 1 / 65536 != 0 ||
    ldOfs x % 64 != 0 || ldLen x % 64 != 0 || decide (ldLen x < 64) || decide (67108864 < ldLen x) ||
    ldWord x 4 % 4 != 0

/-- Word 0 written back: the host's flags, STATUS and DONE (R114). -/
def liftBack (s : Block) (x : LiftCh) (status : Nat) : Block :=
  let w0 := ldWord x 0 % 2 ^ 16 + status * 2 ^ 16 + 2 ^ 31
  { s with cmd := { s.cmd with
    hostMem := putBytes s.cmd.hostMem x.addr (wordBytes (Word.ofNat w0)) } }

/-- The LIFT_SUBMIT that channel `c` works for. -/
def liftJob (s : Block) (c : Nat) : Option Job :=
  s.cmd.jobs.find? (fun j => j.op == Op.liftSubmit && j.todo.headD 0 == c)

/-- The LIFT_SUBMIT of channel `c` completes. -/
def liftJobEnd (s : Block) (c status result : Nat) : Block :=
  match liftJob s c with
  | some j => endJob s { j with steps := (lift s c).done, result := result } status 0
  | none => s

/-- The descriptor in course ends with `status`: written back unless `quiet`, the channel idle, the rest of
the list not read (Table 05-6). -/
def liftEnd (s : Block) (c status : Nat) (quiet : Bool) : Block :=
  let x := lift s c
  let s := if quiet || x.desc.isEmpty then s else liftBack s x status
  let s := setLift s c { x with st := 0, desc := [], data := [], lstat := status }
  liftJobEnd s c status 0

/-- The offset in the segment of the next byte that meets an unmapped page, at or after `o`, below `e`. -/
def firstHole (s : Block) (g : Seg) (o e : Nat) : Option Nat :=
  let ps := ((List.range (pagesOf e)).filter (fun k => decide (o / 8192 ≤ k)))
  (ps.find? (fun k => (pte s (g.vpn + k)).isNone)).map (fun k => k * 8192)

/-- Bytes of the descriptor's data from position `i`, `n` of them. -/
def ldBytes (x : LiftCh) (i n : Nat) : List Byte :=
  (List.range n).map (fun k =>
    let b := i + k
    BitVec.ofNat 8 ((x.data.getD (b / 4) 0).toNat >>> (8 * (b % 4))))

/-- The least time of a copy of `n` bytes in ns: at FSP1 that at NRT_CAP.LIFT × 0.1 GB/s (R281). -/
def liftTime (s : Block) (n : Nat) : Nat :=
  if flag s F.DRAMC_STATE_FSP then n * 10 / max 1 (getF s F.DRAMC_NRT_CAP_LIFT) else 0

/-- The channel copies on from where it stands, to the end or to the first unmapped page, where it is held
and its command completes PARTIAL (R116). At FSP1 the copies of all channels follow one another at the cap (R115, R281). -/
def liftCopy (s : Block) (c : Nat) : Block :=
  let x := lift s c
  let g := seg s (ldSeg x)
  let o := ldOfs x + x.pos
  let e := ldOfs x + ldLen x
  let hole := firstHole s g o e
  let stop := match hole with
    | some h => max o h
    | none => e
  let n := stop - o
  let vs := ((List.range (pagesOf stop)).filter (fun k => decide (o / 8192 ≤ k))).map (· + g.vpn)
  let s := if n = 0 then s else forEach vs s (fun s v => tlbAccess s false v)
  let s := putSegBytes s g o (ldBytes x x.pos n)
  let s := if n = 0 then s else injectErr s (physAddr s g o)
  let t := max s.now s.mem.liftFree
  let s := noteServed { s with mem := { s.mem with liftFree := t + liftTime s n } } 5
  let x := { x with pos := x.pos + n, bytes := x.bytes + n, st := 1, began := t, len := n }
  match hole with
  | none => setLift s c x
  | some h =>
    let s := raise (liftBack s x Sts.partially) F.MMU_STATUS_LIFT_FAULT
    let s := setLift s c { x with st := 3, lstat := Sts.partially, ofs := h }
    liftJobEnd s c Sts.partially h

/-- The target's state at the start of the descriptor (R115 check 4, Table 05-6). -/
def liftState (s : Block) (c : Nat) : Block :=
  let x := lift s c
  let g := seg s (ldSeg x)
  if g.st = 1 || g.st = 4 then liftCopy s c
  else if ldWait x && g.member && (g.st = 3 || g.st = 5) then setLift s c { x with st := 2 }
  else liftEnd s c Sts.activeSegment false

/-- The channel takes its next descriptor, with the data it reads (R115): checks in order, then the copy.
A channel that is not between descriptors takes none, nor does any while the controller serves no request. -/
def effLiftDescriptor (ch : Nat) (desc data : List Word) (s : Block) : Out :=
  withIdx 8 ch <|
    let x := lift s ch
    if x.st != 1 || !x.desc.isEmpty || dramStalled s then .next s
    else
      let x := { x with desc := (desc ++ List.replicate 8 0).take 8, pos := 0 }
      let x := { x with seg := ldSeg x, data := data.take (ldLen x / 4) }
      let s := setLift s ch x
      let g := seg s (ldSeg x)
      .next <|
        if !s.boot.pcieUp then liftEnd s ch Sts.aborted true
        else if dramBad s then liftEnd s ch Sts.dramFrozen false
        else if ldBad x then liftEnd s ch Sts.badParam false
        else if g.st = 0 || g.st = 7 then liftEnd s ch Sts.activeSegment false
        else if segSize g < ldOfs x + ldLen x then liftEnd s ch Sts.badParam false
        else liftState s ch

/-- The copy of channel `ch`'s descriptor completes (R114): written back OK, sealed if asked, be another channel's
descriptor open on the target or not (DESIGN CHOICE, log entry 11), then the next descriptor, or idle after LAST with the
command OK. At FSP1 no sooner than the cap on LIFT allows (R281). -/
def effLiftDescriptorEnd (ch : Nat) (s : Block) : Out :=
  withIdx 8 ch <|
    let x := lift s ch
    if x.st != 1 || x.desc.isEmpty || x.pos < ldLen x || decide (s.now < x.began + liftTime s x.len) || dramStalled s then
      .next s
    else
      let s := liftBack s x Sts.ok
      let s := if ldSeal x then sealSeg s (ldSeg x) else s
      let nxt := ldWord x 6 + ldWord x 7 * 2 ^ 32
      let y := { x with desc := [], data := [], pos := 0, done := x.done + 1, lstat := Sts.ok }
      .next <|
        if ldLast x then
          liftJobEnd (setLift s ch { y with st := 0 }) ch Sts.ok (y.bytes % 2 ^ 32)
        else setLift s ch { y with addr := nxt }

/-- A waiting descriptor whose member is STREAM_EMPTY runs (R119, Table 05-8). -/
def effLiftWaitRelease (ch : Nat) (s : Block) : Out :=
  withIdx 8 ch <|
    let x := lift s ch
    .next (if x.st = 2 && (seg s (ldSeg x)).st = 4 && !dramStalled s then liftCopy s ch else s)

/-! ## LIFT_SUBMIT -/

/-- LIFT_SUBMIT's checks and effect (R115, R116). -/
def liftSubmitBody (h : Hdr) (s : Block) (p : List Word) : CmdRes :=
  let c := pb p 1 2 0
  let resume := pb p 1 8 8 = 1
  let drop := pb p 1 9 9 = 1
  let x := lift s c
  notInBoot s <| needsDram s (dramBad s) <|
    if inWindow s h.ring || (resume && drop) then .fail s Sts.badParam
    else if resume || drop then
      if x.st = 3 then
        if drop then
          .done (setLift s c { x with st := 0, desc := [], data := [] }) Sts.ok 0 x.done 0
        else .wait (setLift s c { x with st := 1 }) [c, 1] 0 0
      else if x.st = 0 then .fail s Sts.state
      else .fail s Sts.busy
    else if x.st != 0 then .fail s Sts.busy
    else .wait (setLift s c { x with st := 1, addr := pw64 p 2, desc := [], data := [], pos := 0,
                                     done := 0, bytes := 0 }) [c, 0] 0 0

/-- LIFT_SUBMIT (0x15). With RESUME the channel re-checks the page at once. -/
def effLiftSubmit (h : Hdr) (p : List Word) (s : Block) : Out :=
  match runCmd s h 0x15 p [] (· == 4) [0x307, 0xFFFFFFFF, 0xFFFFFFFF] (liftSubmitBody h) with
  | .next t =>
    .next (match t.cmd.jobs.find? (fun j => j.op == Op.liftSubmit && j.h == h && j.todo.getD 1 0 == 1) with
      | some j => liftCopy (putJob t j { j with todo := [j.todo.headD 0, 0] }) (j.todo.headD 0)
      | none => t)
  | o => o

/-! ## The host window (R118) -/

/-- The segment and byte offset that WIN_DATA accesses. -/
def winOfs (s : Block) : Nat := getF s F.MMU_WIN_OFS_OFS * 4

/-- A read of WIN_DATA reads memory: DRAM is neither frozen nor unusable, and the word lies within a segment. -/
def winReads (s : Block) : Bool :=
  let g := seg s (getF s F.MMU_WIN_SEG_ID)
  !(dramBad s || g.st = 0 || g.st = 7 || decide (g.pages * 8192 < winOfs s + 4))

/-- The word that a read of WIN_DATA returns: zero while frozen, of a FREE segment, of an unmapped page, and where the read
meets an uncorrectable word (R118, R271). -/
def winRead (s : Block) : Nat :=
  if winReads s && !ueMet s then bytesNat (segBytes s (seg s (getF s F.MMU_WIN_SEG_ID)) (winOfs s) 4) else 0

/-- The access of WIN_DATA by requester `req` of SUB `sub` with command `cmd`, where it reads memory, checked (R258). -/
def winRequest (s : Block) (req sub cmd : Nat) : Block :=
  if winReads s then checkSeg s req sub cmd (getF s F.MMU_WIN_SEG_ID) (winOfs s) 4 else s

/-- The SUB of a host link as requester 6 (Table 12-3). -/
def linkSub (m : Master) : Nat := if m = .pcie then 0 else 1

/-- The read of the block that WIN_DATA accesses, over link `l` (0 PCIe, 1 SPI) with command `cmd`, checked (R258, R264). -/
def winCheck (s : Block) (l cmd : Nat) : Block := checkSeg s 6 l cmd (getF s F.MMU_WIN_SEG_ID) (winOfs s) 4

/-- A write of WIN_DATA over link `l`: refused under R102, or on an unmapped page or beyond the segment, it writes
nothing; where both hold, WIN_REFUSED alone is set (DESIGN CHOICE, log entry 46). A write that is made reads its block
and the run's check block first, and writes both back (R264); where that read meets an uncorrectable word, the write is
dropped (R271). -/
def winWrite (s : Block) (l : Nat) (v : Word) : Block :=
  let g := seg s (getF s F.MMU_WIN_SEG_ID)
  let o := winOfs s
  if dramBad s || !(g.st = 1 || g.st = 4) then raise s F.MMU_STATUS_WIN_REFUSED
  else if decide (segSize g < o + 4) || (physAddr s g o).isNone then raise s F.MMU_STATUS_WIN_UNMAPPED
  else
    let s := winCheck s l 1
    if ueMet s then raise s F.MMU_STATUS_WIN_REFUSED
    else injectErr (putSegBytes s g o (wordBytes v)) (physAddr s g o)

/-- The translation an access of WIN_DATA makes, be the access refused or its page unmapped or not (DESIGN CHOICE, log
entry 9). -/
def winWalk (s : Block) : Block :=
  let g := seg s (getF s F.MMU_WIN_SEG_ID)
  if dramBad s || g.pages = 0 then s else tlbAccess s false (g.vpn + winOfs s / 8192)

/-- WIN_OFS advances by 4 where WIN_AINC is 1. -/
def winStep (s : Block) : Block :=
  if flag s F.MMU_CTRL_WIN_AINC then incF s F.MMU_WIN_OFS_OFS else s

/-! ## Snapshots (R123) -/

/-- The descriptor DESC_SEL names, into the read registers. -/
def descSnap (s : Block) : Block :=
  let id := getF s F.MMU_DESC_SEL_ID
  let g := seg s id
  let fb := if g.sfmt = 2 then 0 else frameBytes g.sfmt g.na g.nl
  let inRing := g.member || g.st = 7
  let s := putM s R.MMU_DESC_STATE 0xFFFFFFFF 0
  let s := setF (setF s F.MMU_DESC_STATE_STATE g.st) F.MMU_DESC_STATE_PIN g.pin
  let s := setB (setB s F.MMU_DESC_STATE_LC (decide (0 < g.lc))) F.MMU_DESC_STATE_OPENW
    (liftOpen s id [1, 2, 3])
  let s := setF s F.MMU_DESC_STATE_LCBLK g.lc
  let s := setF (setF s F.MMU_DESC_FORMAT_FB fb) F.MMU_DESC_FORMAT_NL g.nl
  let s := setF (setF s F.MMU_DESC_FORMAT_NA g.na) F.MMU_DESC_FORMAT_SFMT g.sfmt
  let s := setF (setF s F.MMU_DESC_LEN_FRAMES g.len) F.MMU_DESC_VBASE_VPN
    (if g.st = 0 then 0 else g.vpn)
  setF (setF s F.MMU_DESC_INFO_IDX (if inRing then g.idx else 0)) F.MMU_DESC_INFO_RING
    (if inRing then g.ring else 0)

/-- The page table entry PTE_SEL names, into PTE_LO and PTE_HI (Table 05-17). -/
def pteSnap (s : Block) : Block :=
  let s := putM (putM s R.MMU_PTE_LO 0xFFFFFFFF 0) R.MMU_PTE_HI 0xFFFFFFFF 0
  match pte s (getF s F.MMU_PTE_SEL_VPN) with
  | none => s
  | some e =>
    let g := seg s e.seg
    let s := setF (setF s F.MMU_PTE_LO_V 1) F.MMU_PTE_LO_PIN g.pin
    let s := setB (setB s F.MMU_PTE_LO_MOVE e.move) F.MMU_PTE_LO_LC (decide (0 < g.lc))
    let s := setF (setF s F.MMU_PTE_LO_PPN e.ppn) F.MMU_PTE_HI_PPN (e.ppn >>> 16)
    setF s F.MMU_PTE_HI_SEG e.seg

/-! ## Live values of the MMU block -/

/-- The registers of the MMU block that show live values (R123); none for the others. -/
def mmuView (s : Block) (o : Nat) : Option Nat :=
  let c := lift s (getF s F.MMU_LIFT_SEL_CH)
  let id := getF s F.MMU_RING_SEL_ID
  let r := ringOf s id
  let isRing := (seg s id).st == 7
  let ch := fun (f : LiftCh → Bool) => (List.range 8).foldl (fun n i => n + b2n (f (lift s i)) * 2 ^ i) 0
  match o with
  | 0x08 => some (freePages s)
  | 0x0C => some s.mem.ptes.length
  | 0x10 => some (s.mem.ptes.countP (fun x => match x.2 with
      | some e => (seg s e.seg).pin != 0
      | none => false))
  | 0x14 => some s.mem.retired.length
  | 0x44 => some (lcFree s + 65536 * s.mem.segs.countP (fun x => x.2.lc != 0))
  | 0x58 => some (winRead s)
  | 0x5C => some (ch (fun x => x.st != 0) + 256 * ch (fun x => x.st == 3))
  | 0x64 => some (c.st + 256 * c.lstat + 65536 * c.seg)
  | 0x68 => some c.ofs
  | 0x6C => some c.done
  | 0x74 => some (if isRing then
      r.next + 256 * (r.members.countP (fun m => (seg s m).st == 5) % 256) + 65536 * r.ucount else 0)
  | 0x78 => some (if isRing then r.uframe % 2 ^ 32 else 0)
  | 0x7C => some (if isRing then r.uframe / 2 ^ 32 else 0)
  | _ => none

/-! ## The meanings -/

/-- The channel takes its next descriptor, with the data it reads (R115), done to the block; the queue stays. -/
def execLiftDescriptor (ch : Nat) (desc data : List Word) (s : State) : Host.Outcome State Fault Refusal :=
  onBlock s (effLiftDescriptor ch desc data)

/-- The copy of channel `ch`'s descriptor completes (R114), done to the block; the queue stays. -/
def execLiftDescriptorEnd (ch : Nat) (s : State) : Host.Outcome State Fault Refusal :=
  onBlock s (effLiftDescriptorEnd ch)

/-- A waiting descriptor whose member is STREAM_EMPTY runs (R119, Table 05-8), done to the block; the queue stays. -/
def execLiftWaitRelease (ch : Nat) (s : State) : Host.Outcome State Fault Refusal :=
  onBlock s (effLiftWaitRelease ch)

/-- LIFT_SUBMIT (0x15), done to the block; the queue stays. -/
def execLiftSubmit (h : Hdr) (p : List Word) (s : State) : Host.Outcome State Fault Refusal :=
  onBlock s (effLiftSubmit h p)

end Sys2Proof.Machine
end

