-- ==== Sys2Proof/Machine/Dram.lean ====
section
/-! DEFINITION. The waveform DRAM controller (R256 to R282): address map, refresh, row disturbance, corrected and
uncorrectable errors, training, frequency changes and blackouts. -/

namespace Sys2Proof.Machine

/-! ## The address map (R259) -/

/-- Protected blocks of 64 bytes in the stack: 28 GiB. -/
def dramBlocks : Nat := 469762048

/-- The default masks: channel, BA0, BA1, BG0, BG1, rank (Table 12-2). -/
def defaultMasks : List Nat :=
  [0x111110400, 0x044440800, 0x088881000, 0x000552000, 0x000AA4000, 0x222228000]

/-- The masks in force. -/
def masksInForce (s : Block) : List Nat := if s.dramc.map.isEmpty then defaultMasks else s.dramc.map

/-- The pending masks of the BANKMAP registers. -/
def pendingMasks (s : Block) : List Nat :=
  (List.range 6).map (fun i => (getP s (R.DRAMC_BANKMAP0_LO + 8 * i)).toNat +
    (getP s (R.DRAMC_BANKMAP0_HI + 8 * i)).toNat % 4 * 2 ^ 32)

/-- Mask `i` selects its own base bit, and beside it bits A[10:6] and A[34:17] only. -/
def maskOk (i m : Nat) : Bool :=
  let base := 2 ^ (10 + i)
  m &&& base != 0 && (m &&& (base + maskOf 9 5 + maskOf 33 16)) == m

/-- BANKMAP_STAT and STATE.BANKMAP_PEND follow the pending copy (R260). -/
def syncBankmap (s : Block) : Block :=
  let p := pendingMasks s
  let bad := !(p.zipIdx).all (fun x => maskOk x.2 x.1)
  let pend := p != masksInForce s
  let s := setB (setB s F.DRAMC_BANKMAP_STAT_BAD bad) F.DRAMC_BANKMAP_STAT_PEND pend
  setB s F.DRAMC_STATE_BANKMAP_PEND pend

/-- The raw address of the first byte of protected block `b`. -/
def rawAddr (b : Nat) : Nat := 512 * (b / 7) + 64 * (b % 7)

/-- The XOR of the bits of `a` that a mask selects: mask bit i selects A[i + 1]. -/
def maskXor (m a : Nat) : Nat := popCount (m &&& (a >>> 1)) 34 % 2

/-- Channel, rank, bank and row of raw address `a` (Table 12-2). -/
def rawPlace (s : Block) (a : Nat) : Nat × Nat × Nat × Nat :=
  let x := (masksInForce s).map (fun m => maskXor m a)
  let g := fun i => x.getD i 0
  (g 0, g 5, g 1 + 2 * g 2 + 4 * g 3 + 8 * g 4, natBits a 34 17)

/-- The die of a protected block: q = 2 × channel + rank. -/
def blockDie (s : Block) (b : Nat) : Nat :=
  let p := rawPlace s (rawAddr b)
  2 * p.1 + p.2.1

/-- A field of die `q`. -/
def dieQ (q : Nat) (f : Fld) : Fld := f.at (0x10 * q)

/-! ## Refresh and row disturbance -/

/-- MAXPOST in force. -/
def maxPost (s : Block) : Nat :=
  let m := getF s F.DRAMC_REF_CFG_MAXPOST
  if m = 0 || decide (8 < m) then 8 else m

/-- REFRESH (R265): a refresh of die `die` that falls due in an RT burst is owed, or inserted where the rank owes
MAXPOST; outside a burst one that is owed is made. -/
def effRefresh (die bank : Nat) (inBurst : Bool) (s : Block) : Out :=
  withIdx 4 die <| withIdx 16 bank <|
    let o := Tbl.get (fun _ => 0) s.dramc.owed die
    let put := fun (s : Block) (n : Nat) =>
      { s with dramc := { s.dramc with owed := Tbl.set (fun _ => 0) s.dramc.owed die n } }
    if !inBurst then .next (put s (o - 1))
    else if o < maxPost s then .next (maxF (put s (o + 1)) F.DRAMC_REF_STAT_OWED_MAX (o + 1))
    else
      let s := raise (incF s F.DRAMC_REF_STAT_INSERTED) F.DRAMC_STATUS_REF_INSERT
      .next (incF s (dieQ die F.DRAMC_REF_INS0_COUNT))

/-- RH_LAST of a threshold. -/
def rhLast (s : Block) (die bank row req sub : Nat) : Block :=
  let s := setF (setF s F.DRAMC_RH_LAST_REQ req) F.DRAMC_RH_LAST_SUB sub
  let s := setF (setF s F.DRAMC_RH_LAST_CH (die / 2)) F.DRAMC_RH_LAST_RANK (die % 2)
  setF (setF s F.DRAMC_RH_LAST_BANK bank) F.DRAMC_RH_LAST_ROW row

/-- The lowest count among the entries of a bank's table, with its place; an entry that is clear counts 0. Among entries
of one count the first is taken, a clear one before any (DESIGN CHOICE, log entry 47). -/
def lowestEntry (l : List (Nat × Nat)) : Option (Nat × Nat) :=
  l.foldl (fun m x => match m with
    | none => some x
    | some y => if x.2 < y.2 then some x else some y) none

/-- An activation of `row` in a bank's table of 256 entries (R266): the table, and the row's count. -/
def trackRow (l : List (Nat × Nat)) (row : Nat) : List (Nat × Nat) × Nat :=
  match l.find? (fun x => x.1 == row) with
  | some x => (l.map (fun y => if y.1 = row then (row, x.2 + 1) else y), x.2 + 1)
  | none =>
    if l.length < 256 then (l ++ [(row, 1)], 1)
    else
      match lowestEntry l with
      | some x => (l.map (fun y => if y = x then (row, x.2 + 1) else y), x.2 + 1)
      | none => (l, 0)

/-- RFM issued to a bank of die `die`: the rolling count of the bank falls by the limit (PRESUMED of JESD209-5, log entry
47). -/
def issueRfm (s : Block) (die bank limit : Nat) : Block :=
  let b := 16 * die + bank
  let n := Tbl.get (fun _ => 0) s.dramc.raa b
  let s := incF s (dieQ die F.DRAMC_RFM_CNT0_COUNT)
  { s with dramc := { s.dramc with raa := Tbl.set (fun _ => 0) s.dramc.raa b (n - limit) } }

/-- A count has reached the threshold by an activation of `a` (R267): RFM, the count 0 again, an NRT requester throttled
on the bank, an RT requester reported. -/
def atThreshold (s : Block) (die bank limit : Nat) (a : Activation) : Block :=
  let s := issueRfm s die bank limit
  let s := rhLast (raise (incF s F.DRAMC_RH_STAT_TRACK) F.DRAMC_STATUS_RH_RFM) die bank a.row a.req a.sub
  let b := 16 * die + bank
  let rows := (Tbl.get (fun _ => ([] : List (Nat × Nat))) s.dramc.rows b).map (fun x =>
    if x.1 = a.row then (a.row, 0) else x)
  let s := { s with dramc := { s.dramc with
    rows := Tbl.set (fun _ => ([] : List (Nat × Nat))) s.dramc.rows b rows } }
  if a.req < 5 then
    patrolLog (raise s F.DRAMC_STATUS_RH_RT) 0x24 0 0 (getW s R.DRAMC_RH_LAST).toNat
  else if s.dramc.throttle.contains (a.req, a.sub, b) then s
  else
    let l := s.dramc.throttle ++ [(a.req, a.sub, b)]
    let s := { s with dramc := { s.dramc with throttle := l } }
    setF (incF s F.DRAMC_RH_THROTTLE_TOTAL) F.DRAMC_RH_THROTTLE_ACTIVE l.length

/-- One activation in bank `bank` of die `die` (R266 to R268): the rolling count, which brings RFM at `limit` whatever
RH_EN holds, then, while RH_EN is 1, the row's count, which brings it at THRESH. -/
def activate (die bank limit : Nat) (s : Block) (a : Activation) : Block :=
  let b := 16 * die + bank
  let s := incF s (dieQ die F.DRAMC_ACT_WIN0_COUNT)
  let n := Tbl.get (fun _ => 0) s.dramc.raa b + 1
  let s := { s with dramc := { s.dramc with raa := Tbl.set (fun _ => 0) s.dramc.raa b n } }
  let s := if n < limit then s else incF (issueRfm s die bank limit) F.DRAMC_RH_STAT_RAA
  if !flag s F.DRAMC_CTRL_RH_EN then s
  else
    let r := trackRow (Tbl.get (fun _ => ([] : List (Nat × Nat))) s.dramc.rows b) a.row
    let s := { s with dramc := { s.dramc with
      rows := Tbl.set (fun _ => ([] : List (Nat × Nat))) s.dramc.rows b r.1 } }
    if r.2 < max 256 (getF s F.DRAMC_RH_CFG_THRESH) then s else atThreshold s die bank limit a

/-- RFM (R266 to R268): activations `acts` of bank `bank` of die `die`, in order, with the requests they come from; `limit`
is what MR27 of the die sets. RFM is issued where a count asks for it. -/
def effRfm (die bank : Nat) (acts : List Activation) (limit : Nat) (s : Block) : Out :=
  withIdx 4 die <| withIdx 16 bank <|
    if limit = 0 || acts.any (fun a => decide (262144 ≤ a.row) || !requesterOk a.req a.sub) then
      .fault .noSuchObject
    else .next (forEach acts s (activate die bank limit))

/-- Periodic work `k` is due: `period` ns have passed since it was last done. -/
def workDue (s : Block) (k period : Nat) : Bool :=
  let t := Tbl.get (fun _ => 0) s.dramc.lastAt k
  t == 0 || decide (t + period ≤ s.now + 1)

/-- Periodic work `k` is done now. -/
def workDone (s : Block) (k : Nat) : Block :=
  { s with dramc := { s.dramc with lastAt := Tbl.set (fun _ => 0) s.dramc.lastAt k (s.now + 1) } }

/-- RH_WINDOW_RESET (R266): every entry is cleared at the start of a window of 32 ms, and the throttles end. -/
def effRhWindowReset (s : Block) : Out :=
  if !workDue s 5 32000000 then .next s
  else
    let s := workDone { s with dramc := { s.dramc with rows := [], throttle := [] } } 5
    let s := setF s F.DRAMC_RH_THROTTLE_ACTIVE 0
    .next (forEach (List.range 4) s (fun s q => setF s (dieQ q F.DRAMC_ACT_WIN0_COUNT) 0))

/-- SCRUB_READ (R270): the scrubber reads its next raw run, all 56 words of it, and corrects as R269 gives; a pass begins
once in SCRUB_CFG.HOURS. -/
def effScrubRead (s : Block) : Out :=
  let r := getF s F.DRAMC_SCRUB_STAT_RUN
  let hours := getF s F.DRAMC_SCRUB_CFG_HOURS
  if !flag s F.DRAMC_CTRL_SCRUB_EN || !dramRuns s || (r == 0 && !workDue s 6 (hours * 3600000000000)) then .next s
  else
    let s := if r = 0 then workDone s 6 else s
    let s := checkRead s 11 0 2 none (fun w => w / 56 == r)
    let s := incF s F.DRAMC_SCRUB_STAT_RUN
    .next (if r + 1 = 2 ^ 26 then incF s F.DRAMC_SCRUB_STAT_PASSES else s)

/-- The drift measured (below 4) or applied (4 + die) of a die at the FSP in force. -/
def driftOf (s : Block) (k : Nat) : Int := Tbl.get (fun _ => (0 : Int)) s.dramc.drift (8 * getF s F.DRAMC_STATE_FSP + k)

/-- A drift entry of the FSP in force changed. -/
def setDrift (s : Block) (k : Nat) (v : Int) : Block :=
  { s with dramc := { s.dramc with
    drift := Tbl.set (fun _ => (0 : Int)) s.dramc.drift (8 * getF s F.DRAMC_STATE_FSP + k) v } }

/-- DRIFT_TRACK (R278): every OSC_CFG.INTERVAL ms the oscillator of die `die` gives `count`, a drift of `drift` taps since
training: the taps move by one toward it. -/
def effDriftTrack (die count : Nat) (drift : Int) (s : Block) : Out :=
  withIdx 4 die <|
    if !flag s F.DRAMC_CTRL_OSC_EN || !dramRuns s ||
        !workDue s die (getF s F.DRAMC_OSC_CFG_INTERVAL * 1000000) then .next s
    else
      let s := workDone s die
      let old := driftOf s (4 + die)
      let new := approach old drift 1
      let s := setDrift (setDrift s die drift) (4 + die) new
      let s := if new = old then s else incF s F.DRAMC_DRIFT_ADJ_COUNT
      let big := (List.range 4).foldl (fun (m : Int) q =>
        if m.natAbs < (driftOf s q).natAbs then driftOf s q else m) 0
      let s := setF (setF s F.DRAMC_OSC_STAT_COUNT (satU 16 count)) F.DRAMC_OSC_STAT_DRIFT (unsigned 16 big)
      .next (if getF s F.DRAMC_OSC_CFG_LIMIT < drift.natAbs then raise s F.DRAMC_STATUS_DRIFT else s)

/-- MR4_READ: every 16 ms (Table 12-1). -/
def effMr4Read (codes : List Nat) (hot : Bool) (s : Block) : Out :=
  if !workDue s 4 16000000 then .next s
  else
    let s := forEach (List.range 4) (workDone s 4) (fun s q =>
      setF s ⟨R.DRAMC_TEMP, 4 * q + 3, 4 * q⟩ (codes.getD q 0))
    .next (if hot then raise s F.DRAMC_STATUS_TEMP_HIGH else s)

/-! ## Corrected errors (R269) -/

/-- A single-bit error in a word of protected block `block` corrected: the flag, the counts, PATROL's class 0 against the
page, and the recovery of a single fault (R372). -/
def countCorrection (s : Block) (block : Nat) : Block :=
  let s := incF (raise s F.DRAMC_STATUS_CE) F.DRAMC_ECC_CE_COUNT
  let s := setF s F.DRAMC_ECC_CE_ADDR_BLOCK block
  let s := incF s (dieQ (blockDie s block) F.DRAMC_CE_CNT0_COUNT)
  recovered (patrolEvent s 0 (block / 128))

/-- ECC_CORRECTION: a single-bit error in a word of a DRAM block (R269), of the loop cache (R113) or of a sine table (R155)
is corrected and written back; or a word of a sine table goes wrong in more than one bit, for its reads to meet. -/
def effEccCorrection (place : EccPlace) (s : Block) : Out :=
  match place with
  | .dram block =>
    withIdx dramBlocks block <|
      if !flag s F.DRAMC_CTRL_ECC_EN || !dramRuns s then .next s
      else
        let errs := s.mem.errs.filter (fun e => !(e.1 / 8 == block && e.2 == 1))
        .next (settleJobs (countCorrection { s with mem := { s.mem with errs := errs } } block))
  | .sram block =>
    withIdx 2147483648 block <| .next (settleJobs (recovered (patrolEvent s 0 (0x80000000 + block))))
  | .window word => withIdx 16384 word <| .next (settleJobs (recovered (patrolEvent s 0 (0x40000 + 4 * word))))
  | .sineWord die bank k block =>
    withIdx 2 die <| withIdx 2 bank <| withIdx 16384 k <| withIdx 2147483648 block <|
      .next (if (sineUe s die bank k).isSome then s
        else { s with tableUe := s.tableUe ++ [(die, bank, k, block)] })

/-! ## Freeze (R271) -/

/-- Any group is DRAM-dependent. -/
def anyDependent (s : Block) : Bool := (List.range 16).any (dependent s)

/-- A SEG_COMPACT ends with `status`, and its grant is released. -/
def endCompact (s : Block) (j : Job) (status : Nat) : Block :=
  let q := s.sys.queue.filter (fun r => r.id != j.id)
  let s := endJob (setQueue s q) j status 0
  if j.todo.headD 0 = 1 then pacRelease s 6 100 else pacVisit s

/-- A command in progress that needs DRAM ends; a SEG_FREE's pages count as returned. -/
def jobAtFreeze (s : Block) (j : Job) : Block :=
  if j.op = Op.segFree then
    let n := j.todo.headD 0
    let s := freeEnd (forEach (j.todo.drop (1 + n)) s unmapPage) ((j.todo.drop 1).take n)
    endJob s j Sts.dramFrozen 0
  else if j.op = Op.segCompact then endCompact s j Sts.dramFrozen
  else if [Op.segCreate, Op.segOpen, Op.stepsWrite, Op.acqReadout].contains j.op then
    endJob s j Sts.dramFrozen 0
  else if j.op = Op.seqArm then
    let n := pb j.p 1 3 0
    endJob (setF (disarm s n) (qF n F.SEQ_STATE_SSTATE) 0) j Sts.dramFrozen 0
  else if (j.op = Op.dramTrain || j.op = Op.dramFreq) && j.todo.headD 0 = 0 then
    let q := s.sys.queue.filter (fun r => r.id != j.id)
    pacVisit (endJob (setQueue s q) j Sts.dramFrozen 0)
  else s

/-- What is captured of the error (Table 12-12). -/
def captureError (s : Block) (e : UncorrectableError) : Block :=
  let a := rawAddr e.block
  let p := rawPlace s a
  let s := setF (setF s F.DRAMC_FRZ_STAT_WORDS e.words) F.DRAMC_FRZ_STAT_REQ e.req
  let s := setF (setF s F.DRAMC_FRZ_STAT_SUB e.sub) F.DRAMC_FRZ_STAT_CMD e.cmd
  let s := setF (setB s F.DRAMC_FRZ_STAT_SIG e.sig) F.DRAMC_FRZ_STAT_VALID 1
  let s := setF s F.DRAMC_FRZ_PADDR_BLOCK e.block
  let s := setF (setF s F.DRAMC_FRZ_RADDR_CH p.1) F.DRAMC_FRZ_RADDR_RANK p.2.1
  let s := setF (setF s F.DRAMC_FRZ_RADDR_BANK p.2.2.1) F.DRAMC_FRZ_RADDR_ROW p.2.2.2
  let s := setF (setF s F.DRAMC_FRZ_COL_SYND e.synd) F.DRAMC_FRZ_COL_WORD e.word
  let s := setF s F.DRAMC_FRZ_COL_COL (a % 2048)
  let s := setB s F.DRAMC_FRZ_SEG_SYSAREA (decide (e.block / 128 < 8192))
  let s := setB s F.DRAMC_FRZ_SEG_SEG_VALID e.seg.isSome
  let s := setF s F.DRAMC_FRZ_SEG_SEG (e.seg.getD 0)
  set64 s F.DRAMC_FRZ_TIME_LO_NS F.DRAMC_FRZ_TIME_HI_NS s.sysTime

/-- The error is one that a read can meet: a block of the stack, a requester of Table 12-3, a command of Table 12-12, and
under a signature mismatch every word of what was read, which is the block, or the run of a scrub read (R258). -/
def errorOk (e : UncorrectableError) : Bool :=
  decide (e.block < dramBlocks) && requesterOk e.req e.sub && decide (e.cmd < 3) && decide (e.word < 8) &&
    decide (1 ≤ e.words) && decide (e.words ≤ 56) &&
    (!e.sig || (e.word == 0 && e.words == (if e.cmd = 2 then 56 else 8)))

/-- The capture on engine `t`, armed or running, ends in DONE with STATUS.DRAM set (R193). -/
def freezeCapture (s : Block) (t : Nat) : Block :=
  settleAborts (endCapture (raise s (tF t F.TRACK_STATUS_DRAM)) t 3 true) t

/-- An uncorrectable error freezes the controller (Table 12-4). The package enters SAFE once no DRAM-dependent group
plays. -/
def freeze (s : Block) (e : UncorrectableError) : Block :=
  let s := captureError s e
  let s := setF (raise s F.DRAMC_STATUS_UE_FREEZE) F.DRAMC_STATE_DSTATE 4
  let s := { s with dramc := { s.dramc with frozenAt := s.now, safeDue := true } }
  let s := abandonMove s
  let s := forEach ((List.range 8).filter (fun c => (lift s c).st != 0)) s (fun s c =>
    liftEnd s c Sts.dramFrozen false)
  let s := forEach ((List.range 4).filter (capArmed s)) s freezeCapture
  settleJobs (s.cmd.jobs.foldl jobAtFreeze s)

/-- DRAM_FREEZE: an uncorrectable error freezes the controller. -/
def effDramFreeze (e : UncorrectableError) (s : Block) : Out :=
  if !errorOk e then .fault .noSuchObject
  else .next (if !flag s F.DRAMC_CTRL_ECC_EN || !dramRuns s then s else freeze s e)

/-- The error that a hit is captured as: the uncorrectable words of its run among those met, and a syndrome that the code,
which the spec does not give, makes a free value. -/
def hitError (s : Block) (l : List DramHit) (h : DramHit) : UncorrectableError :=
  ⟨h.req, h.sub, h.cmd, false, h.word / 8, l.countP (fun x => x.bits == 2 && x.word / 56 == h.word / 56), h.word % 8,
    freeNat s 8, h.seg⟩

/-- What the errors met at the reads of a step bring about, at its end: each correction is counted, and the first
uncorrectable word freezes the controller; both in one read are both done (Table 12-9). None is left to deal with. -/
def afterReads (s : Block) : Block :=
  match s.dramc.hits with
  | [] => s
  | l =>
    let s := { s with dramc := { s.dramc with hits := [] } }
    let s := forEach (l.filter (fun h => h.bits == 1)) s (fun s h => countCorrection s (h.word / 8))
    let s := match l.find? (fun h => h.bits == 2) with
      | some h => freeze (useFree s) (hitError s l h)
      | none => settleJobs s
    { s with dramc := { s.dramc with hits := [] } }

/-- A step that reads DRAM, and what the errors its reads met bring about. -/
def onReads (s : State) (f : Block → Out) : Host.Outcome State Fault Refusal :=
  onBlock s (fun b => match f b with
    | .next t => .next (afterReads t)
    | o => o)

/-- FREEZE_BUFFERS_EMPTY: the buffers of a dependent group are empty, 32 µs after the freeze or later: its sequencer
stops, its units go to FAULT and its lane clusters to HOLD; after the last such group the package enters SAFE. -/
def effFreezeBuffersEmpty (g : Nat) (s : Block) : Out :=
  withIdx 16 g <|
    if getF s F.DRAMC_STATE_DSTATE != 4 || !stillPlays s g || decide (s.now < s.dramc.frozenAt + 32000) then
      .next s
    else
      let s := seqEnd s g 4 6 0
      let s := forEach (bitList (group s g).mask 64) s (sendFault false s.sysTime)
      let s := forEach (bitList (group s g).lcmask 8) s (fun s c =>
        if getF s (lF c F.LC_STATE_CSTATE) = 2 then setF s (lF c F.LC_STATE_CSTATE) 3 else s)
      .next (settleJobs s)

/-! ## DRAM_RESUME (R272) -/

/-- Words of the captured run set to zero. -/
def zeroWords (s : Block) (run : Nat) (ws : List Nat) : Block :=
  let s := forEach ws s (fun s w => { s with mem := { s.mem with
    dram := putBytes s.mem.dram (448 * run + 8 * w) (List.replicate 8 0) } })
  let errs := s.mem.errs.filter (fun e => !(e.1 / 56 == run && ws.contains (e.1 % 56)))
  { s with mem := { s.mem with errs := errs } }

/-- DRAM_RESUME's checks and effect. `bad`: the words of the captured run that do not decode at the re-read;
`sigBad`: its signature does not match, which makes every word one. -/
def dramResumeBody (bad : List Nat) (sigBad : Bool) (s : Block) (p : List Word) : CmdRes :=
  let blk := getF s F.DRAMC_FRZ_PADDR_BLOCK
  let held := fun (i : Nat) => flag s F.DRAMC_CTRL_ECC_EN && s.mem.errs.any (fun e => e.1 == 56 * (blk / 7) + i && e.2 == 2)
  let ws := if sigBad then List.range 56 else (List.range 56).filter (fun i => bad.contains i || held i)
  let again := fun (s : Block) => checkRead (setF s F.DRAMC_STATE_DSTATE 2) 8 0 0 none (fun w => w / 56 == blk / 7)
  let stat := fun (s : Block) r n =>
    setF (setF s F.DRAMC_RESUME_STAT_RESULT r) F.DRAMC_RESUME_STAT_WORDS n
  notInBoot s <|
    if getF s F.DRAMC_STATE_DSTATE != 4 then .fail s Sts.state
    else if ws.isEmpty then .okay (stat (again s) 1 0)
    else if pb p 1 0 0 = 0 then .fail s Sts.dramFrozen
    else if flag s F.DRAMC_FRZ_SEG_SYSAREA then .fail s Sts.state
    else
      let s := injectErr (stat (again (zeroWords s (blk / 7) ws)) 2 ws.length) (some (448 * (blk / 7)))
      let s := if s.sys.retire.contains (blk / 128) then s
        else { s with sys := { s.sys with retire := s.sys.retire ++ [blk / 128] } }
      .done (resumeMoves s) Sts.ok 0 1 ws.length

/-- DRAM_RESUME (0x62). -/
def effDramResume (h : Hdr) (p : List Word) (badWords : List Nat) (sigBad : Bool) (s : Block) : Out :=
  runCmd s h Op.dramResume p [] (· == 2) [1] (dramResumeBody badWords sigBad)

/-! ## Blackouts (R280) -/

/-- What follows a pass of sequencer `n` that ends at its next frame: a decided jump, or the natural successor of its last
pass; none where the step goes on or the sequence ends. -/
def comingStep (s : Block) (n : Nat) : Option Successor :=
  let q := seqr s n
  let w := stepAt s (getF s (qF n F.SEQ_CUR_STEP))
  let last := stLoop w != 0 && decide (stLoop w ≤ getF s (qF n F.SEQ_PASS_COUNT) + 1)
  match q.succ with
  | some x => some x
  | none => if last && !stEnd w then some ⟨stNext w, false, stGsrc w != 0, 0, 255, q.empties.contains (stNext w)⟩ else none

/-- In a blackout REPEAT replays the cached segment of the pass just completed, where what follows it is not cached and
follows at once (R280). -/
def blackoutReplay (s : Block) (n : Nat) : Option Successor :=
  let q := seqr s n
  if getF s (qF n F.SEQ_CTRL_UPOL) != 0 || !(q.mode = 2 || (q.mode = 1 && q.decided && q.cut.isNone)) ||
      q.frame != q.s + q.len || !cachedFor s n q.seg then none
  else (comingStep s n).filter (fun x => !x.gate && !x.empty && !cachedFor s n (stepSegment s x.step))

/-- BLACKOUT_UNDERRUN (R280): 32 µs into a blackout or later, a dependent group that plays from DRAM cannot deliver its
coming frame: it acts under its underrun policy. REPEAT replays a cached segment just completed; else it acts as HOLD. -/
def effBlackoutUnderrun (n : Nat) (s : Block) : Out :=
  withIdx 16 n <|
    let q := seqr s n
    let late := match s.dramc.blackout with
      | some b => decide (b + 32000 ≤ s.now)
      | none => false
    let ends := (q.mode = 1 || q.mode = 2) && (q.frame == q.s + q.len || q.cut == some q.frame)
    let id := if q.mode = 4 then getF s (qF n F.SEQ_IDLE_SEG) else q.seg
    let under := fun (s : Block) => raise (raise s (qF n F.SEQ_STATUS_UNDERRUN)) F.DRAMC_STATUS_BLACKOUT
    if !late || !seqDue s n then .next s
    else
      match blackoutReplay s n with
      | some x =>
        let s := newPass (dropCut (under s) n) n q.frame
        .next (syncSeq (setSeq s n { seqr s n with mode := 2, decided := true, succ := some x }) n)
      | none =>
        if ends || !(q.mode = 1 || q.mode = 2 || q.mode = 4) || cachedFor s n id then .next s
        else if getF s (qF n F.SEQ_CTRL_UPOL) = 2 then
          .next (settleJobs (underrunFault (seqEnd (under s) n 4 4 0) n q.frame))
        else
          .next (syncSeq (setSeq (under s) n { q with
            mode := 5, held := q.mode, heldAt := q.frame, holdNext := q.frame + 64 }) n)

/-- No request is served from now on. -/
def beginBlackout (s : Block) (dstate : Nat) : Block :=
  let s := setF (setF s F.DRAMC_STATE_BUSY 1) F.DRAMC_STATE_DSTATE dstate
  { s with dramc := { s.dramc with blackout := some s.now } }

/-- Requests are served again. -/
def endBlackout (s : Block) : Block :=
  let s := setF s F.DRAMC_STATE_BUSY 0
  let s := if getF s F.DRAMC_STATE_DSTATE = 5 then s else setF s F.DRAMC_STATE_DSTATE 2
  { s with dramc := { s.dramc with blackout := none } }

/-! ## Training (R274 to R277) -/

/-- The stack runs at FSP `f`. -/
def setFsp (s : Block) (f : Nat) : Block :=
  setF (setF s F.DRAMC_STATE_FSP f) F.DRAMC_FREQ_MTS (if f = 0 then 6400 else 3200)

/-- The least eye width a training asks for, in ps. -/
def minEye (s : Block) : Nat := max 20 (getF s F.DRAMC_TRAIN_CFG_MIN_EYE)

/-- A training passes when every eye is wide enough and every word of step 7 decodes (R274). -/
def trainPass (s : Block) (o : TrainOutcome) : Bool := decide (minEye s ≤ o.eye) && o.verify

/-- The worst bit and the failed step of a training: that of the eye, else the verification. -/
def trainStat (s : Block) (f : Nat) (o : TrainOutcome) (result : Nat) : Block :=
  let step := if trainPass s o then 0 else if o.eye < minEye s then o.step else 7
  let s := setF (setF s F.DRAMC_TRAIN_STAT_FSP f) F.DRAMC_TRAIN_STAT_RANK o.rank
  let s := setF (setF s F.DRAMC_TRAIN_STAT_CH o.ch) F.DRAMC_TRAIN_STAT_BIT o.bit
  let s := setF s F.DRAMC_TRAIN_STAT_STEP step
  setF s F.DRAMC_TRAIN_STAT_RESULT result

/-- The place of a training's worst bit among its eyes: 256 × kind (0 read, 1 write, 2 CA) and the bit by channel and
rank. -/
def worstPlace (o : TrainOutcome) : Nat :=
  (if 16 ≤ o.bit then 512 else if o.step = 5 then 256 else 0) + o.bit % 32 + 32 * (o.ch % 2) + 64 * (o.rank % 2)

/-- FSP `f` is trained with outcome `o`; on failure the fallbacks of Table 12-7. The settings of a training that
passes are free values. -/
def trainFsp (s : Block) (f : Nat) (o : TrainOutcome) : Block :=
  let s := incF s F.DRAMC_TRAIN_COUNT_RUNS
  if trainPass s o then
    let l := Tbl.set (fun _ => ((0 : Nat), (0 : Nat), (0 : Nat))) s.dramc.trained f (s.free + 1, o.eye, worstPlace o)
    let d := s.dramc.drift.filter (fun x => x.1 / 8 != f)
    let s := { s with dramc := { s.dramc with trained := l, drift := d }, free := s.free + 4096 }
    let s := if f = 0 then setF s F.DRAMC_STATE_DEGRADED 0 else s
    trainStat s f o 0
  else
    let s := raise (incF s F.DRAMC_TRAIN_COUNT_FAILS) F.DRAMC_STATUS_TRAIN_FAIL
    if o.prevOk && (Tbl.get (fun _ => ((0 : Nat), (0 : Nat), (0 : Nat))) s.dramc.trained f).1 != 0 then trainStat s f o 1
    else if o.stepDownOk then
      let s := raise (setF (setFsp s 1) F.DRAMC_STATE_DEGRADED 1) F.DRAMC_STATUS_STEPDOWN
      trainStat s f o 2
    else
      let s := raise (setF s F.DRAMC_STATE_DSTATE 5) F.DRAMC_STATUS_UNUSABLE
      trainStat s f o 3

/-- FSP0, then FSP1 unless the stack is unusable, each where it has an outcome. After both TRAIN_STAT keeps the graver
result. -/
def trainFsps (s : Block) (o0 o1 : Option TrainOutcome) : Block :=
  let s := match o0 with
    | some o => trainFsp s 0 o
    | none => s
  match o1 with
  | none => s
  | some o =>
    if getF s F.DRAMC_STATE_DSTATE = 5 then s
    else
      let w := getW s R.DRAMC_TRAIN_STAT
      let t := trainFsp s 1 o
      if o0.isSome && decide (getF t F.DRAMC_TRAIN_STAT_RESULT < bits w 3 0) then
        putM t R.DRAMC_TRAIN_STAT 0xFFFFFFFF w.toNat
      else t

/-- A training outcome as numbers in a job, and back. -/
def outcomeNats (o : TrainOutcome) : List Nat :=
  [o.eye, b2n o.verify, b2n o.prevOk, b2n o.stepDownOk, o.rank, o.ch, o.bit, o.step]
def natsOutcome (l : List Nat) : TrainOutcome :=
  let g := fun i => l.getD i 0
  ⟨g 0, g 1 == 1, g 2 == 1, g 3 == 1, g 4, g 5, g 6, g 7⟩

/-- The masks of a REMAP come into force: the system area is rebuilt and the step table cleared. -/
def putMasks (s : Block) (l : List Nat) : Block :=
  let s := { s with dramc := { s.dramc with map := if l = defaultMasks then [] else l } }
  let errs := s.mem.errs.filter (fun e => decide (8192 ≤ e.1 / 1024))
  syncBankmap { s with mem := { s.mem with steps := [], errs := errs } }

/-- Power asked for a command on the CDIE ledger, in the host class. -/
def askCdie (s : Block) (h : Hdr) (op mw : Nat) : Block × PacAnswer :=
  pacAsk s ⟨1, 110, [(6, mw)], .cmd op, h.ring, s.cmd.cur, s.now + toCmd s⟩ false

/-- DRAM_TRAIN's checks and first step. Its `todo`: 0 while power is awaited, 1 while it trains, 2 while the masks are
written; the outcomes; the masks as they stood at the commit. -/
def dramTrainBody (h : Hdr) (o0 o1 : TrainOutcome) (s : Block) (p : List Word) : CmdRes :=
  let force := pb p 1 0 0 = 1
  let remap := pb p 1 1 1 = 1
  let used := s.mem.segs.any (fun x => x.2.st != 0)
  notInBoot s <|
    if pb p 1 5 4 = 0 then .fail s Sts.badParam
    else if remap && flag s F.DRAMC_BANKMAP_STAT_BAD then .fail s Sts.badParam
    else if dramBad s then .fail s Sts.dramFrozen
    else if flag s F.DRAMC_STATE_BUSY || s.cmd.jobs.any (fun j => j.op == Op.dramTrain || j.op == Op.dramFreq)
      then .fail s Sts.busy
    else if remap && (used || anySeqArmed s || anyCapArmed s) then .fail s Sts.state
    else if !force && (anyDependent s || anyCapArmed s) then .fail s Sts.state
    else
      let a := askCdie s h Op.dramTrain 300
      let rest := outcomeNats o0 ++ outcomeNats o1 ++ pendingMasks s
      match a.2 with
      | .deny => .failD a.1 Sts.powerDenied 0
      | .queue => .more a.1 0 0 (0 :: rest)
      | .grant => .more (beginBlackout a.1 1) 0 0 (1 :: rest)

/-- DRAM_TRAIN (0x60). -/
def effDramTrain (h : Hdr) (p : List Word) (fsp0 fsp1 : TrainOutcome) (s : Block) : Out :=
  runCmd s h Op.dramTrain p [] (· == 2) [0x33] (dramTrainBody h fsp0 fsp1)

/-- The requests of a command that PAC has queued. -/
def stillQueued (s : Block) (j : Job) : Bool := !(queuedFor s j).isEmpty

/-- The training ends: its outcomes, then, under REMAP, the masks and the record that start-up loads. -/
def trainEnd (s : Block) (j : Job) : Block :=
  let o := fun k => natsOutcome ((j.todo.drop (1 + 8 * k)).take 8)
  let fsps := pb j.p 1 5 4
  let fails := getF s F.DRAMC_TRAIN_COUNT_FAILS
  let s := trainFsps s (if fsps.testBit 0 then some (o 0) else none) (if fsps.testBit 1 then some (o 1) else none)
  let s := pacRelease (endBlackout s) 6 300
  let r := getF s F.DRAMC_TRAIN_STAT_RESULT
  let j' := { j with steps := j.steps + 1, result := r - 1 }
  if getF s F.DRAMC_TRAIN_COUNT_FAILS != fails then
    let s := endJob s j' Sts.trainFail 0
    if getF s F.DRAMC_STATE_DSTATE = 5 then packageSafe s 6 else s
  else if pb j.p 1 1 1 = 1 then
    let l := j.todo.drop 17
    let old := masksInForce s
    let s := putMasks s l
    let bytes := fun (l : List Nat) => l.flatMap (fun m => natBytes m 8)
    let nums := fun (l : List Nat) => (bytes l).map (fun b => b.toNat)
    let au := [6, b2n (inWindow s j.h.ring), 0, 0, crc32 (bytes old), crc32 (bytes l), 0, 0, 0, 0, 0]
    let x : NvmTx := ⟨6, 0, if j.h.ring = 3 then 0 else 1, j.h.ring, j.id, nums l, au, 0, []⟩
    nvmKick (nvmQueue (putJob s j { j' with todo := [2] }) x)
  else endJob s j' Sts.ok 0

/-- A later step of DRAM_TRAIN. -/
def trainContinue (s : Block) (j : Job) : Block :=
  let hd := j.todo.headD 0
  if 0x1000 ≤ hd then endJob s j (hd - 0x1000) j.detail
  else if hd = 0 then
    if stillQueued s j then s else beginBlackout (putJob s j { j with todo := 1 :: j.todo.drop 1 }) 1
  else if hd = 1 then trainEnd s j
  else if s.nvm.txs.any (fun x => x.id == j.id) then s
  else endJob s j Sts.ok 0

/-! ## DRAM_FREQ (R279) -/

/-- The change begins: every owed refresh is issued, and no request is served (Table 12-8). -/
def beginFreq (s : Block) : Block := beginBlackout { s with dramc := { s.dramc with owed := [] } } 3

/-- DRAM_FREQ's checks and first step. -/
def dramFreqBody (h : Hdr) (s : Block) (p : List Word) : CmdRes :=
  let f := pb p 1 0 0
  let force := pb p 1 1 1 = 1
  notInBoot s <|
    if dramBad s then .fail s Sts.dramFrozen
    else if flag s F.DRAMC_STATE_BUSY || s.cmd.jobs.any (fun j => j.op == Op.dramTrain || j.op == Op.dramFreq)
      then .fail s Sts.busy
    else if f = getF s F.DRAMC_STATE_FSP then .okay s
    else if f = 0 && flag s F.DRAMC_STATE_DEGRADED then .fail s Sts.trainFail
    else if !force && (anyDependent s || anyCapArmed s) then .fail s Sts.state
    else if f = 1 then .more (beginFreq s) 0 0 [1]
    else
      let a := askCdie s h Op.dramFreq 250
      match a.2 with
      | .deny => .failD a.1 Sts.powerDenied 0
      | .queue => .more a.1 0 0 [0]
      | .grant => .more (beginFreq a.1) 0 0 [1]

/-- DRAM_FREQ (0x61). -/
def effDramFreq (h : Hdr) (p : List Word) (s : Block) : Out :=
  runCmd s h Op.dramFreq p [] (· == 2) [3] (dramFreqBody h)

/-- A later step of DRAM_FREQ. -/
def freqContinue (s : Block) (j : Job) : Block :=
  let hd := j.todo.headD 0
  let f := pb j.p 1 0 0
  if 0x1000 ≤ hd then endJob s j (hd - 0x1000) j.detail
  else if hd = 0 then
    if stillQueued s j then s else beginFreq (putJob s j { j with todo := [1] })
  else
    let s := endBlackout (setFsp s f)
    let s := if f = 0 then pacRelease s 6 250 else s
    endJob s { j with steps := j.steps + 1 } Sts.ok 0

/-- A frequency change in course completes, as it does before SAFE_ALL or SAFE_N takes the package to SAFE (Table
12-9). -/
def finishFreq (s : Block) : Block :=
  (s.cmd.jobs.filter (fun j => j.op == Op.dramFreq && j.todo.headD 0 == 1)).foldl freqContinue s

/-! ## The meanings -/

/-- REFRESH (R265), done to the block; the queue stays. -/
def execRefresh (die bank : Nat) (inBurst : Bool) (s : State) : Host.Outcome State Fault Refusal :=
  onBlock s (effRefresh die bank inBurst)

/-- RFM (R266 to R268), done to the block; the queue stays. -/
def execRfm (die bank row req sub : Nat) (w : RowWindow) (s : State) : Host.Outcome State Fault Refusal :=
  onBlock s (effRfm die bank (w.before ++ [⟨row, req, sub⟩]) w.limit)

/-- RH_WINDOW_RESET (R266), done to the block; the queue stays. -/
def execRhWindowReset (s : State) : Host.Outcome State Fault Refusal :=
  onBlock s (effRhWindowReset)

/-- SCRUB_READ (R270), done to the block; the queue stays. -/
def execScrubRead (s : State) : Host.Outcome State Fault Refusal :=
  onReads s (effScrubRead)

/-- DRIFT_TRACK (R278), done to the block; the queue stays. -/
def execDriftTrack (die count : Nat) (drift : Int) (s : State) : Host.Outcome State Fault Refusal :=
  onBlock s (effDriftTrack die count drift)

/-- MR4_READ, done to the block; the queue stays. -/
def execMr4Read (codes : List Nat) (hot : Bool) (s : State) : Host.Outcome State Fault Refusal :=
  onBlock s (effMr4Read codes hot)

/-- ECC_CORRECTION, done to the block; the queue stays. -/
def execEccCorrection (place : EccPlace) (s : State) : Host.Outcome State Fault Refusal :=
  onBlock s (effEccCorrection place)

/-- DRAM_FREEZE, done to the block; the queue stays. -/
def execDramFreeze (e : UncorrectableError) (s : State) : Host.Outcome State Fault Refusal :=
  onBlock s (effDramFreeze e)

/-- FREEZE_BUFFERS_EMPTY, done to the block; the queue stays. -/
def execFreezeBuffersEmpty (g : Nat) (s : State) : Host.Outcome State Fault Refusal :=
  onBlock s (effFreezeBuffersEmpty g)

/-- DRAM_RESUME (0x62), done to the block; the queue stays. -/
def execDramResume (h : Hdr) (p : List Word) (badWords : List Nat) (sigBad : Bool) (s : State) : Host.Outcome State Fault Refusal :=
  onReads s (effDramResume h p badWords sigBad)

/-- DRAM_TRAIN (0x60), done to the block; the queue stays. -/
def execDramTrain (h : Hdr) (p : List Word) (fsp0 fsp1 : TrainOutcome) (s : State) : Host.Outcome State Fault Refusal :=
  onBlock s (effDramTrain h p fsp0 fsp1)

/-- DRAM_FREQ (0x61), done to the block; the queue stays. -/
def execDramFreq (h : Hdr) (p : List Word) (s : State) : Host.Outcome State Fault Refusal :=
  onBlock s (effDramFreq h p)

/-- SEG_OPEN (0x13), done to the block; the queue stays. -/
def execSegOpen (h : Hdr) (p : List Word) (s : State) : Host.Outcome State Fault Refusal :=
  onReads s (effSegOpen h p)

/-- SEG_FREE (0x11), done to the block; the queue stays. -/
def execSegFree (h : Hdr) (p : List Word) (s : State) : Host.Outcome State Fault Refusal :=
  onReads s (effSegFree h p)

/-- A page copy completes and the entry flips (R110); none in course, or a frozen controller, done to the block; the queue stays. -/
def execPageMove (s : State) : Host.Outcome State Fault Refusal :=
  onReads s (effPageMove)

/-- UPLOAD_BLOCK (R190), done to the block; the queue stays. -/
def execUploadBlock (t : Nat) (s : State) : Host.Outcome State Fault Refusal :=
  onReads s (effUploadBlock t)

/-- ACQ_READOUT (0x44), done to the block; the queue stays. -/
def execAcqReadout (h : Hdr) (p : List Word) (s : State) : Host.Outcome State Fault Refusal :=
  onReads s (effAcqReadout h p)

/-- SEQ_ARM (0x22), done to the block; the queue stays. -/
def execSeqArm (h : Hdr) (p : List Word) (s : State) : Host.Outcome State Fault Refusal :=
  onReads s (effSeqArm h p)

/-- RING_READ (R120, R132), done to the block; the queue stays. -/
def execRingRead (n : Nat) (s : State) : Host.Outcome State Fault Refusal :=
  onReads s (effRingRead n)

/-- FRAME_0 (R130), done to the block; the queue stays. -/
def execFrame0 (n : Nat) (s : State) : Host.Outcome State Fault Refusal :=
  onReads s (effFrame0 n)

/-- PASS_END (R131, R148), done to the block; the queue stays. -/
def execPassEnd (n : Nat) (s : State) : Host.Outcome State Fault Refusal :=
  onReads s (settled <| effPassEnd n)

/-- GRANULE_JUMP (R136), done to the block; the queue stays. -/
def execGranuleJump (n : Nat) (s : State) : Host.Outcome State Fault Refusal :=
  onReads s (settled <| effGranuleJump n)

/-- UNDERRUN_HOLD_CHECK (Table 05-7), done to the block; the queue stays. -/
def execUnderrunHoldCheck (n : Nat) (s : State) : Host.Outcome State Fault Refusal :=
  onReads s (settled <| effUnderrunHoldCheck n)

/-- GATE_RELEASE (R138 to R140), done to the block; the queue stays. -/
def execGateRelease (n : Nat) (s : State) : Host.Outcome State Fault Refusal :=
  onReads s (settled <| effGateRelease n)

/-- BLACKOUT_UNDERRUN, done to the block; the queue stays. -/
def execBlackoutUnderrun (n : Nat) (s : State) : Host.Outcome State Fault Refusal :=
  onReads s (effBlackoutUnderrun n)

end Sys2Proof.Machine
end

