-- ==== Sys2Proof/Machine/Lanes.lean ====
section
/-! DEFINITION. Lane clusters frame by frame (R165 to R177). -/

namespace Sys2Proof.Machine

/-- Of what is on its way, what the pins have last taken up by instant `t`: the latest due, of those due at once the last
put; else what they had. -/
def lastPin (l : List LanePin) (t : Nat) (p : LanePin) : LanePin :=
  (l.filter (fun q => decide (q.due ≤ t))).foldl (fun a q => if a.due ≤ q.due then q else a) p

/-- What was due by 100 ns ago is at the pins of cluster `c`: younger changes stay in the list, since the
contention check asks how long a drive has been steady (R167). -/
def laneFlush (s : Block) (c : Nat) : Block :=
  let x := lane s c
  let t := s.sysTime - 100
  setLane s c { x with pin := lastPin x.pipe t x.pin, pipe := x.pipe.filter (fun p => decide (t < p.due)) }

/-- One shift of the PRBS-7 register, x^7 + x^6 + 1. -/
def prbsShift (r : Nat) : Nat := (r * 2) % 128 + (natBits r 6 6 + natBits r 5 5) % 2

/-- Bit `k` of the PRBS-7 pattern that an eye measurement drives, from a register of ones (PRESUMED, log entry 49). -/
def prbsBit (k : Nat) : Nat := natBits (prbsShift^[k % 127] 127) 6 6

/-- The skew tap of lane `j` of cluster `c` in force at the bit boundary `d`: one written acts from the next boundary on
(R174). -/
def laneTap (s : Block) (c j d : Nat) : Nat :=
  let b := unitBase (96 + c)
  let w := ((lane s c).tapOld.find? (fun p => decide (d < p.1))).elim (getW s (b + R.LC_SKEW_LO), getW s (b + R.LC_SKEW_HI)) (·.2)
  bits (if j < 4 then w.1 else w.2) (8 * (j % 4) + 5) (8 * (j % 4))

/-- The instant in ps at which lane `j` of `c` takes up `p`: its boundary, later by 25 ps for each step of the tap in force
there (R174). Two edges under different taps make the bit between them longer or shorter by the difference. -/
def laneEdgePs (s : Block) (c j : Nat) (p : LanePin) : Nat := 1000 * p.due + 25 * laneTap s c j p.due

/-- What lane `j` of `c` shows at instant `ps`: the latest due of what has come to its pin. -/
def lanePinAt (s : Block) (c j ps : Nat) : LanePin :=
  let x := lane s c
  (x.pipe.filter (fun q => decide (laneEdgePs s c j q ≤ ps))).foldl (fun a q => if a.due ≤ q.due then q else a) x.pin

/-- The levels of cluster `c` at instant `ps` and the lanes left high-impedance, each lane as its own edges give. -/
def laneLevelsAt (s : Block) (c ps : Nat) : Nat × Nat :=
  (List.range 8).foldl (fun a j =>
    let o := laneLevels s c (lanePinAt s c j ps)
    (a.1 + natBits o.1 j j * 2 ^ j, a.2 + natBits o.2 j j * 2 ^ j)) (0, 0)

/-- An eye measurement drives the lanes of cluster `c` (R176): until its unit leaves the path, or SAFE ends it
(R170). -/
def prbsOn (s : Block) (c : Nat) : Bool :=
  let x := lane s c
  x.prbsAt != 0 && (x.prbsTo == 0 || decide (s.sysTime < x.prbsTo))

/-- The levels that cluster `c` drives now and the lanes that it leaves high-impedance: all of them while VIO keeps the
drivers off (R172); PRBS-7 at 200 Mb/s on the PUSH lanes while its eyes are measured (R176). -/
def lanePins (s : Block) (c : Nat) : Nat × Nat :=
  let x := lane s c
  let p := lastPin x.pipe s.sysTime x.pin
  let o := laneLevelsAt s c (1000 * s.sysTime)
  if x.vioOff || decide (s.sysTime < x.vioBack) then (0, 255)
  else if !prbsOn s c then o
  else
    let push := (List.range 8).filter (fun j => bits p.cfg (4 * j + 1) (4 * j) == 0)
    let m := push.foldl (fun a j => a + 2 ^ j) 0
    (mergeMask o.1 (prbsBit ((s.sysTime + 1 - x.prbsAt) / 5) * m) m, o.2 - (o.2 &&& m))

/-- The resistance from each lane of cluster `c` to ground in kOhm: in PARK 100 within 30 %, which of them the spec leaves
open, and a free value here (Table 08-3, log entry 5); in every other state there is none. -/
def laneParkKOhm (s : Block) (c : Nat) : Option Nat :=
  let x := lane s c
  if (lastPin x.pipe s.sysTime x.pin).st = 0 then some (70 + (Config.freeValue (s.free + c)).toNat % 61) else none

/-- The state of cluster `c` for the frame at boundary `b` (Table 08-3, Table 08-4): `live` where its group
delivers the frame, `cut` where a strobe at `b` makes CTRL.EN 0. -/
def laneNext (s : Block) (c b : Nat) (live cut : Bool) : Nat :=
  let x := lane s c
  let st := getF s (lF c F.LC_STATE_CSTATE)
  let en := flag s (lF c F.LC_CTRL_EN)
  let freed := x.trans.any (fun p => decide (p.1 ≤ b))
  if st = 0 then 0
  else if st = 4 then
    if freed || (x.underrunSafe && cut && modeOf s != 4) then 1 else 4
  else if !en || (groupOf s (96 + c)).isNone then 1
  else if live then 2
  else if st = 2 then (if flag s (lF c F.LC_CTRL_STOP_IDLE) then 1 else 3)
  else st

/-- The frame at boundary `b` enters cluster `c` with lane byte `byte`: strobes, the state, and what
reaches the pins STATE.LAT frames later (R170, R174). In SAFE only a changed LCFG goes to the pins: a lane's mode applies
in every state (R169), but for one strobed at the boundary of the package's entry (Table 08-4). -/
def laneFrame (s : Block) (c b : Nat) (live : Bool) (byte : Nat) : Block :=
  let s := laneFlush s c
  let ins := inputLanes s
  let en := flag s (lF c F.LC_CTRL_EN)
  let cfg := laneCfg s c
  let s := applyStrobes s (96 + c) b
  let new := laneCfg s c != cfg
  let s := if c = 7 then syncInputs s ins else s
  let st := laneNext s c b live (en && !flag s (lF c F.LC_CTRL_EN))
  let old := getF s (lF c F.LC_STATE_CSTATE)
  let x := lane s c
  let s := setLane s c { x with
    lastB := b, trans := x.trans.filter (fun p => decide (b < p.1)),
    underrunSafe := x.underrunSafe && st == 4,
    cfgAt := if new then b + 1 else x.cfgAt, cfgOld := if new then cfg else x.cfgOld,
    byte := if st = 2 then byte else if st = 3 then x.byte else 0 }
  let s := setF s (lF c F.LC_STATE_CSTATE) st
  if st = 0 || (st = 4 && old = 4 && !(new && (x.underrunSafe || x.safeAt != b + 1))) then s
  else lanePut s c (b + getF s (lF c F.LC_STATE_LAT) * unitT s (96 + c))

/-! ## VIO (R172) -/

/-- LEVEL of the input lanes of LC7 made `v`. -/
def setInputs (s : Block) (v : Nat) : Block := syncLevels (setF s (lF 7 F.LC_INCFG_LEVEL) v)

/-- VIO_LOW: every lane of the cluster high-impedance, CSTATE and the frame stream unchanged; input lanes
read 0 and fire no event. -/
def effVioLow (c : Nat) (s : Block) : Out :=
  withIdx 8 c <|
    let s := setF (raise s (lF c F.LC_STATUS_VIO_LOW)) (lF c F.LC_STATE_VIO_OK) 0
    let s := setLane s c { lane s c with vioOff := true }
    .next (if c = 7 then setInputs s 0 else s)

/-- VIO_RECOVER: the drivers resume at the next bit boundary with what the stream of frames then has at the pins, and each
input filter restarts from the level it reads, which fires no event. A supply that was not low changes
nothing. -/
def effVioRecover (c : Nat) (s : Block) : Out :=
  withIdx 8 c <|
    if !(lane s c).vioOff then .next s
    else
      let s := setF s (lF c F.LC_STATE_VIO_OK) 1
      let s := setLane s c { lane s c with vioOff := false, vioBack := nextBit s.sysTime }
      let lv := (inputLanes s).foldl (fun a j => a + b2n ((lane s 7).raw.testBit j) * 2 ^ j) 0
      .next (if c = 7 then setInputs s lv else s)

/-! ## Input lanes (R175) -/

/-- INCFG of LC7 as it judges a sample: a write in this very cycle acts from the next one (Table 08-4). -/
def incfgNow (s : Block) : Word :=
  let a := unitBase 103 + R.LC_INCFG
  (writtenNow s a).getD (getW s a)

/-- EDGE of input lane `j` selects an edge to `level`. -/
def edgeChosen (s : Block) (j : Nat) (level : Bool) : Bool :=
  (bits (incfgNow s) (2 * j + 1) (2 * j)).testBit (if level then 0 else 1)

/-- LANE_INPUT_EDGE: the pad of input lane L56 + `j` shows a level that has now been read on `samples` consecutive samples;
the filter accepts it after FILT + 1. An accepted edge of the selected kind fires
source 144 + `j`, at most once per 10 ns; one closer sets IN_MERGE. The firing follows the crossing by
40 ns + FILT × 5 ns, which has passed when the level is accepted. A lane not in IN mode or without VIO, a level that
the filter does not accept, and one that is no change, give nothing but the level the pad shows. -/
def effLaneInputEdge (j : Nat) (level : Bool) (samples : Nat) (s : Block) : Out :=
  withIdx 8 j <|
    let x := lane s 7
    let raw := mergeMask x.raw (b2n level * 2 ^ j) (2 ^ j)
    let s := setLane s 7 { x with raw := raw }
    let lv := getF s (lF 7 F.LC_INCFG_LEVEL)
    if x.vioOff || !(inputLanes s).contains j || lv.testBit j == level ||
        decide (samples ≤ bits (incfgNow s) 23 16) then .next s
    else
      let s := setInputs s (mergeMask lv (b2n level * 2 ^ j) (2 ^ j))
      if !edgeChosen s j level then .next s
      else
        let last := Tbl.get (fun _ => 0) x.lastEv j
        if last != 0 && decide (s.sysTime < last - 1 + 10) then
          .next (raise s (lF 7 F.LC_STATUS_IN_MERGE))
        else
          let y := lane s 7
          let s := setLane s 7 { y with lastEv := Tbl.set (fun _ => 0) y.lastEv j (s.sysTime + 1) }
          .next (fire s (144 + j) 0 s.sysTime)

/-! ## Pads (R167) -/

/-- What the pins of `c` were to show in the last 100 ns: what they had, and what has come since. -/
def recentPins (s : Block) (c : Nat) : List LanePin :=
  let x := lane s c
  x.pin :: x.pipe.filter (fun p => decide (p.due ≤ s.sysTime))

/-- Lane `j` of `c` is a PUSH lane that has driven its present level for 100 ns or more. -/
def lanePushes (s : Block) (c j : Nat) : Bool :=
  let x := lane s c
  let now := lanePins s c
  bits (laneCfg s c) (4 * j + 1) (4 * j) == 0 && !now.2.testBit j && !prbsOn s c &&
    decide (x.prbsTo + 100 ≤ s.sysTime) &&
    decide (x.vioBack + 100 ≤ s.sysTime) && (x.levAt == 0 || decide (x.levAt + 99 ≤ s.sysTime)) &&
    (recentPins s c).all (fun p =>
      let o := laneLevels s c p
      o.1.testBit j == now.1.testBit j && !o.2.testBit j)

/-- LANE_CONTENTION_CHECK: the pad levels are read into STATE.PIN, and a PUSH lane whose drive has been steady
and differs from its pad sets CONTENTION. -/
def effLaneContentionCheck (c : Nat) (pads : Byte) (s : Block) : Out :=
  withIdx 8 c <|
    let s := laneFlush s c
    let o := lanePins s c
    let bad := (List.range 8).any (fun j => lanePushes s c j && o.1.testBit j != pads.toNat.testBit j)
    let s := setF s (lF c F.LC_STATE_PIN) pads.toNat
    .next (if bad then raise s (lF c F.LC_STATUS_CONTENTION) else s)

/-! ## The meanings -/

/-- VIO_LOW, done to the block; the queue stays. -/
def execVioLow (c : Nat) (s : State) : Host.Outcome State Fault Refusal :=
  onBlock s (effVioLow c)

/-- VIO_RECOVER, done to the block; the queue stays. -/
def execVioRecover (c : Nat) (s : State) : Host.Outcome State Fault Refusal :=
  onBlock s (effVioRecover c)

/-- LANE_INPUT_EDGE, done to the block; the queue stays. -/
def execLaneInputEdge (j : Nat) (e : PadEdge) (s : State) : Host.Outcome State Fault Refusal :=
  onBlock s (effLaneInputEdge j e.level e.samples)

/-- LANE_CONTENTION_CHECK, done to the block; the queue stays. -/
def execLaneContentionCheck (c : Nat) (pads : Byte) (s : State) : Host.Outcome State Fault Refusal :=
  onBlock s (effLaneContentionCheck c pads)

end Sys2Proof.Machine
end

