-- ==== Sys2Proof/Machine/Playback.lean ====
section
/-! DEFINITION. A frame enters the output chains of a group's members, or of a unit or cluster that belongs to
no group (R35 to R39, R76 to R92, R97, R141, R151). -/

namespace Sys2Proof.Machine

/-! ## What a group delivers -/

/-- What the frame of a group holds: whether it is delivered, the segment, the frame in it, the amplitude. -/
structure FrameSrc where
  live : Bool
  sg   : Nat
  idx  : Nat
  amp  : Int
  deriving DecidableEq, Repr

/-- The source of the coming frame of sequencer `n`: a pass, a wait, the idle segment; of a group that delivers
none, frame 0 of its start step. -/
def frameSrc (s : Block) (n : Nat) : FrameSrc :=
  let q := seqr s n
  match q.mode with
  | 1 => ⟨true, q.seg, q.frame - q.s, q.amp⟩
  | 2 => ⟨true, q.seg, q.frame - q.s, q.amp⟩
  | 3 => ⟨true, q.seg, q.lastIdx, q.amp⟩
  | 4 =>
    let id := getF s (qF n F.SEQ_IDLE_SEG)
    ⟨true, id, (q.frame - q.waitFrom) % max 1 (seg s id).len, 65536⟩
  | _ => ⟨false, q.seg, 0, q.amp⟩

/-- Sample `k` (analogue slot) of the frame, as a code before the amplitude (R36, R97). -/
def sampleCode (s : Block) (x : FrameSrc) (k : Nat) : Int :=
  let g := seg s x.sg
  let base := x.idx * frameBytes g.sfmt g.na g.nl
  if g.sfmt = 0 then signed 24 (bytesNat (segBytes s g (base + 4 * k + 1) 3)) * 16
  else signed 16 (bytesNat (segBytes s g (base + 2 * k) 2)) * 4096

/-- The lane byte of lane slot `k`. -/
def laneByte (s : Block) (x : FrameSrc) (k : Nat) : Nat :=
  let g := seg s x.sg
  (segByte s g (x.idx * frameBytes g.sfmt g.na g.nl + g.na * (if g.sfmt = 0 then 4 else 2) + k)).toNat

/-- The segment's own markers of the frame: bits 7:4 of slot 0 of an S32 segment (R97). -/
def segMarks (s : Block) (x : FrameSrc) : Nat :=
  let g := seg s x.sg
  if g.sfmt = 0 && g.na != 0 then
    (segByte s g (x.idx * frameBytes g.sfmt g.na g.nl)).toNat / 16
  else 0

/-- The markers of the coming frame (R141); a group that delivers no frame keeps those of the last. -/
def frameMarks (s : Block) (n : Nat) : Nat :=
  let q := seqr s n
  let x := frameSrc s n
  let w := stepAt s (getF s (qF n F.SEQ_CUR_STEP))
  let own := segMarks s x
  match q.mode with
  | 3 => 0
  | 4 => own
  | 5 => q.marks
  | _ => (List.range 4).foldl (fun a k =>
      a + 2 ^ k * (match stMov w k with
        | 0 => natBits own k k
        | 1 => 0
        | 2 => 1
        | _ => if x.idx = 0 then 1 else 0)) 0

/-- A granule of the frame of sequencer `n` is fetched: the translations of its pages and the reads of its blocks,
checked, unless the loop cache plays it (R106, R113, R258). -/
def fetchGranule (s : Block) (n : Nat) (x : FrameSrc) : Block :=
  let g := seg s x.sg
  let fb := frameBytes g.sfmt g.na g.nl
  if !x.live || x.idx % 64 != 0 || cachedFor s n x.sg then s
  else
    let a := x.idx * fb / 8192
    let b := ((x.idx + 64) * fb - 1) / 8192
    let s := forEach ((List.range (b + 1 - a)).map (· + a)) s (fun s k => tlbAccess s true (g.vpn + k))
    checkSeg s 0 n 0 x.sg (x.idx * fb) (64 * fb)

/-! ## Units -/

/-- Stages 1 to 3 of unit `u` for a frame with sample code `v` and amplitude `a`: the code, and whether it was
saturated (R36, R37, R151). -/
def stage3 (s : Block) (u : Nat) (v a : Int) : Int × Bool :=
  let x := divEven (v * a) 65536 + synValue s u + signed 28 (getF s (uF u F.P_OFFSET_OFFS))
  let c := clampI (-maxCode) maxCode x
  (c, c != x)

/-- New temperatures and a bank swap take effect (R41, R42, R39). -/
def applyPending (s : Block) (u b : Nat) : Block :=
  let x := unit s u
  let s := match x.tempNew with
    | some (t, d) => if d < b then setUnit s u { x with temp := t, tempNew := none } else s
    | none => s
  match (unit s u).swapDue with
  | some d =>
    if d ≤ b then
      let f := uF u F.P_STATE_CBANK
      setF (setUnit s u { unit s u with swapDue := none }) f (1 - getF s f)
    else s
  | none => s

/-- Conditions of unit `u` that last set their flags again at its frame boundary (R49, R54). -/
def lasting (s : Block) (u : Nat) : Block :=
  let x := unit s u
  let s := if x.comp then unitFlag s u 1 else s
  let s := if x.ovl then unitFlag s u 2 else s
  if x.senseInt then unitFlag s u 3 else s

/-- The frame at boundary `b` enters the chain of unit `u`: what takes effect at it in the order of R39 and
Table 04-5, the value and the state, stage 4. `v`: the sample's code and amplitude; `play`: its group runs,
or it has none. The frame-0 value of a group that has not started reads the sine table too (R87, R155). -/
def unitFrame (s : Block) (u b : Nat) (live play : Bool) (v a : Int) : Block :=
  let s := applyCarves s u b
  let s := endSwitch (applyStrobes s u b) u b
  let s := if ostate s u = 2 && !live then setOstate s u 3 0 else s
  let s := applyDue s u b
  let s := selChanged s u b live
  let s := seekRange (chase s u live) u b
  let s := applyPending s u b
  let s := applySineSwap s u b
  let s := if play || (follows s u && !(unit s u).delivered) then sineReads s u else s
  let c := stage3 s u v a
  let x := unit s u
  let pv := if live || !x.delivered then c.1 else x.last
  let s := unitValue s u b pv live
  let s := if ostate s u = 2 && c.2 then unitFlag s u 0 else s
  let s := stage4 s u
  let s := lasting s u
  let s := dropLims (enterChain (followProg s u) u b) u b
  let y := unit s u
  let s := setUnit s u { y with lastB := b, last := if live then c.1 else y.last,
                                delivered := y.delivered || live }
  if play then advanceSynth s u else s

/-! ## A boundary -/

/-- The boundary that a group not running, or a unit or cluster on its own, comes to: the latest of its grid. -/
def latestBoundary (s : Block) (u : Nat) : Nat := floorTo s.sysTime (unitT s u)

/-- The slot of member `u` among those of its group: analogue or lane slots (R96). -/
def slotOf (s : Block) (n u : Nat) : Nat :=
  let l := if u < 96 then bitList (group s n).mask 64 else (bitList (group s n).lcmask 8).map (· + 96)
  l.idxOf u

/-- The frame of boundary `b` of an idle group, unit or cluster enters the chain of each member that has not
had it. -/
def idleFrame (s : Block) (l : List Nat) (x : FrameSrc) (b : Nat) (slot : Nat → Nat) (play : Bool) :
    Block :=
  let l := l.filter (fun u => decide ((if u < 96 then (unit s u).lastB else (lane s (u - 96)).lastB) < b))
  let s := forEach l s (fun s u =>
    if u < 96 then unitFrame s u b false play (sampleCode s x (slot u)) x.amp
    else laneFrame s (u - 96) b false 0)
  settleJobs (beginSwitch s b)

/-- The marker events of the frame (R141), and the markers kept. -/
def emitMarks (s : Block) (n : Nat) : Block :=
  let q := seqr s n
  let m := frameMarks s n
  let s := forEach (List.range 4) s (fun s k =>
    if m.testBit k && !q.marks.testBit k then seqEmit s n (48 + 4 * n + k) 0 q.frame 255 else s)
  setSeq s n { seqr s n with marks := m }

/-- The coming frame of running group `n` enters its members' chains; a frame in SYSTIME that a forward step
skipped is consumed and not delivered, and its CARVE actions act as if it were (R249). -/
def playFrame (s : Block) (n : Nat) : Block :=
  let q := seqr s n
  let b := bt s n q.frame
  let x := frameSrc s n
  let s := emitMarks (fetchGranule s n x) n
  let skip := decide (s.clock.skipFrom ≤ b) && decide (b < s.clock.skipTo)
  let l := if skip then [] else members s n
  let s := if skip then forEach ((members s n).filter (· < 64)) s (fun s u => advanceSynth (applyCarves s u b) u) else s
  let s := forEach l s (fun s u =>
    let k := slotOf s n u
    if u < 96 then unitFrame s u b x.live true (sampleCode s x k) x.amp
    else laneFrame s (u - 96) b x.live (laneByte s x k))
  let s := set64 s (qF n F.SEQ_FRAME_LO_FRAME) (qF n F.SEQ_FRAME_HI_FRAME) q.frame
  let s := takeEvents (setSeq s n { seqr s n with frame := q.frame + 1 }) n
  settleJobs (beginSwitch s b)

/-- Nothing that happens at the coming frame's boundary before it is still to happen: a stop, the end of the
pass, the ring read and the decision that precede it, a cut, a release, an underrun hold's check, a CARVE
chain. -/
def frameClear (s : Block) (n : Nat) : Bool :=
  let q := seqr s n
  let d := decisionFrame q
  let pass := match q.mode with
    | 1 => q.frame != q.s + q.len && q.cut != some q.frame && (q.frame != d || q.readDone) &&
        (decide (q.frame ≤ d) || q.decided || q.cut.isSome)
    | 2 => q.frame != q.s + q.len && (q.frame != d || q.readDone)
    | 5 => q.release != some q.frame && (q.release.isSome || q.frame != q.holdNext)
    | _ => !releaseHere s n
  !stopHere q && pass && !carveOwed s n

/-- A group that has a frame 0 to come, at `b` or before. -/
def startsBy (s : Block) (n b : Nat) : Bool :=
  match (seqr s n).startAt with
  | some t => decide (t ≤ b)
  | none => false

/-- FRAME_PLAYBACK (R37): the coming frame of a running group; else the frame at the latest boundary. -/
def effFramePlayback (f : FrameOf) (s : Block) : Out :=
  match f with
  | .group n =>
    withIdx 16 n <|
      if !(group s n).defined then .next s
      else if seqPlays s n then
        .next (if seqDue s n && frameClear s n then playFrame s n else s)
      else
        let b := match members s n with
          | u :: _ => latestBoundary s u
          | [] => 0
        .next (if startsBy s n b then s else
          let src := frameSrc s n
          idleFrame s (members s n) { src with live := false, idx := 0 } b (slotOf s n) false)
  | .unit u =>
    withIdx 64 u <|
      .next (if (groupOf s u).isSome then s else
        idleFrame s [u] ⟨false, 0, 0, 0⟩ (latestBoundary s u) id true)
  | .lanes c =>
    withIdx 8 c <|
      .next (if (groupOf s (96 + c)).isSome then s else
        idleFrame s [96 + c] ⟨false, 0, 0, 0⟩ (latestBoundary s (96 + c)) id true)

/-! ## The meanings -/

/-- FRAME_PLAYBACK (R37), done to the block; the queue stays. -/
def execFramePlayback (f : FrameOf) (s : State) : Host.Outcome State Fault Refusal :=
  onReads s (effFramePlayback f)

end Sys2Proof.Machine
end

