-- ==== Sys2Proof/Machine/UnitWrites.lean ====
section
/-! DEFINITION. The rules that a unit's own block sets for a write of one of its registers, by the host or by
UNIT_CONFIG (R4, R43, R51, R53, R75, R167, R173, R185). -/

namespace Sys2Proof.Machine

/-- Unit or cluster `u` belongs to an armed group: its sequencer is in a state other than IDLE. -/
def groupArmed (s : Block) (u : Nat) : Bool :=
  match groupOf s u with
  | some g => getF s (qF g F.SEQ_STATE_SSTATE) != 0
  | none => false

/-- The unit's CFG_IGNORED flag. -/
def cfgIgnoredF (u : Nat) : Fld :=
  if u < 64 then uF u F.P_STATUS_CFG_IGNORED
  else if u < 96 then aF (u - 64) F.A_STATUS_CFG_IGNORED
  else uF u F.LC_STATUS_CFG_IGNORED

/-- The bits of the register at offset `o` that unit `u` does not take while armed (R43, R173, R185, Table
02-26), nor, of SKEW, while a timing calibration holds the unit (R348). -/
def unitHeld (s : Block) (u o : Nat) : Nat :=
  if u < 64 then
    if o = R.P_CTRL && groupArmed s u then maskOf 9 8
    else if o = 0x30 && decide (48 ≤ u) && groupArmed s u then maskOf 1 0
    else 0
  else if u < 96 then
    if (o = R.A_CTRL || (decide (R.A_RED0 ≤ o) && decide (o < R.A_RED0 + 16))) && acqBound s (u - 64) then
      0xFFFFFFFF
    else 0
  else if o = R.LC_CTRL && groupArmed s u then maskOf 2 2
  else 0

/-- A range that unit `u` has no grant for (R53), or a reserved code (R51). -/
def rangeRefused (s : Block) (u sel : Nat) : Bool :=
  !rangeOk u sel || decide ((unit s u).floor + (unit s u).grant < rangePac u sel)

/-- XCFG holds a reserved mode or a frequency out of range (R75). -/
def xcfgBad (new : Nat) : Bool :=
  decide (2 ≤ natBits new 1 0) || decide (natBits new 31 16 < 500) || decide (50000 < natBits new 31 16)

/-- The bits of `mask` that a write of `new` over `old` may change once the unit's own rules are applied, and the
state with the flag they set: CFG_IGNORED where a field that is held while armed would change, so a write that leaves
INTERP, ALIGN or CLOAD at its value sets none (DESIGN CHOICE, log entry 29). -/
def unitMask (s : Block) (u o old new mask : Nat) : Block × Nat :=
  if unitCodeBad u o new then (raise s (cfgIgnoredF u), 0)
  else if u < 64 && o = R.P_RANGE && rangeRefused s u (natBits new 3 0) then
    (raise s (uF u F.P_STATUS_RANGE_REFUSED), 0)
  else if decide (96 ≤ u) && decide (u < 103) && o = R.LC_INCFG then (s, 0)
  else
    let h := unitHeld s u o
    let lost := (new ^^^ old) &&& (h &&& mask)
    let s := if lost != 0 || (decide (64 ≤ u) && decide (u < 96) && h &&& mask != 0) then
        raise s (cfgIgnoredF u) else s
    (s, mask - (mask &&& h))

end Sys2Proof.Machine
end

