-- ==== Sys2Proof/Machine/Modes.lean ====
section
/-! DEFINITION. Modes (R350 to R359): the two-phase change, SAFE by command, pin and node, and the way back. A
party is named as in Table 16-2's DETAIL; the CDIE's own blocks are party 0x300. -/

namespace Sys2Proof.Machine

/-! ## Prepare (R352, Table 16-2) -/

/-- A unit is ACTIVE, in HOLD or in SNOWPLOUGH toward the playback value. -/
def unitBusy (s : Block) (u : Nat) : Bool :=
  match ostate s u with
  | 2 => true
  | 3 => true
  | 5 =>
    match (unit s u).goal with
    | .play => true
    | .value _ _ => true
    | _ => false
  | _ => false

/-- A LIFT channel is busy. -/
def liftBusy (s : Block) : Bool := (List.range 8).any (fun c => (lift s c).st != 0)

/-- Every refusal (reason, DETAIL) that this package's own parties have for `target`. -/
def refusals (s : Block) (target : Nat) : List (Nat × Nat) :=
  let seqIn := fun (st : Nat → Bool) => ((List.range 16).filter (fun n =>
    st (getF s (qF n F.SEQ_STATE_SSTATE)))).map (· + 0x100)
  let active := if target = 1 || target = 5 then
      (List.range 64).filter (unitBusy s) ++ seqIn (· == 3) else []
  let armed := if target = 5 then
      seqIn (· != 0) ++ ((List.range 4).filter (capArmed s)).map (· + 0x180) ++
        (if liftBusy s || (waitingJobs s).any (fun j => j.op != Op.modeSet) then [0xFFFF] else [])
    else []
  let cal := if modeOf s = 3 && s.cal.run.isSome then [(4, 0xFFFF)] else []
  active.map (fun d => (2, d)) ++ armed.map (fun d => (3, d)) ++ cal

/-- The refusal reported: the lowest reason, then the lowest DETAIL. -/
def leastRefusal : List (Nat × Nat) → Option (Nat × Nat)
  | [] => none
  | r :: t =>
    match leastRefusal t with
    | none => some r
    | some q => if q.1 < r.1 || (q.1 == r.1 && decide (q.2 < r.2)) then some q else some r

/-- The regions that are parties: those not in SAFE. -/
def partyRegions (s : Block) : List Nat :=
  (List.range 4).filter (fun i => !(getF s F.PATROL_RGN_STATE_SAFE).testBit i)

/-- The other nodes present. -/
def otherNodes (s : Block) : List Nat :=
  (bitList (getF s F.GYDEN_PRESENT_NODES) 16).filter (· != getF s F.GYDEN_CONFIG_NODE)

/-- Region `i`'s link is not lost (R23). -/
def rgnReachable (s : Block) (i : Nat) : Bool := !(getF s F.PATROL_RGN_STATE_LINK_LOST).testBit i

/-- PREPARE sent to every party; the parties reached report (R352). -/
def startChange (s : Block) (target : Nat) (system : Bool) (deadlineUs : Nat) : Block :=
  let d := if deadlineUs = 0 then getF s F.POWER_MODECFG_DEADLINE else deadlineUs
  let d := (if d = 0 then 1000 else d) * 1000
  let rg := partyRegions s
  let nodes := if system then (otherNodes s).map (· + 0x400) else []
  let c : ModeChange := {
    target := target, system := system, due := s.now + (if system then max d 3000000 else d),
    parties := 0x300 :: rg.map (· + 0x200) ++ nodes,
    ready := 0x300 :: (rg.filter (rgnReachable s)).map (· + 0x200),
    refusal := leastRefusal (refusals s target), edge := none, applied := [], first := 0, last := 0 }
  let s := setF (setF s F.GLOBAL_MODE_CHANGING 1) F.GLOBAL_MODE_TGT target
  { s with sys := { s.sys with change := some c }, gyden := { s.gyden with prep := s.gyden.prep || system } }

/-- A party's report. -/
def partyReports (s : Block) (party : Nat) (refused : Option (Nat × Nat)) : Block :=
  match s.sys.change with
  | none => s
  | some c =>
    if c.edge.isSome || !c.parties.contains party || c.ready.contains party then s
    else
      let r := match refused with
        | some x => leastRefusal (x :: (match c.refusal with
          | some y => [y]
          | none => []))
        | none => c.refusal
      { s with sys := { s.sys with change := some { c with ready := party :: c.ready, refusal := r } } }

/-- Every party has reported. -/
def allReported (c : ModeChange) : Bool := c.parties.all (fun p => c.ready.contains p)

/-! ## Commit -/

/-- The change is committed at edge `e`, every condition checked again (R352, R353). -/
def commitAt (s : Block) (e : Nat) : Block :=
  match s.sys.change with
  | none => s
  | some c =>
    match leastRefusal (refusals s c.target) with
    | some r => abandonMode s r.1 r.2 Sts.state
    | none =>
      let nodes := c.parties.filter (fun p => decide (0x400 ≤ p))
      let safe := fun u => (getF s F.PATROL_RGN_STATE_SAFE).testBit (regionOf u)
      let us := (List.range 64).filter (fun u => !safe u)
      let c := { c with
        edge := some e, applied := [], ready := [],
        parties := us ++ (List.range 8).map (· + 96) ++ 0x300 :: nodes }
      { s with sys := { s.sys with change := some c } }

/-- MODE_COMMIT (R352, R353, R355): every party has reported. A refusal abandons the change; else it is committed at
the next f_M edge, or, system-wide, named for the next epoch. -/
def effModeCommit (s : Block) : Out :=
  match s.sys.change with
  | none => .next s
  | some c =>
    if c.edge.isSome || !allReported c then .next s
    else
      match c.refusal with
      | some r => .next (settleJobs (abandonMode s r.1 r.2 Sts.state))
      | none =>
        if c.system then
          .next (if s.gyden.commit != 0 || !flag s F.GYDEN_CONFIG_MASTER then s else
            let g := s.gyden
            { s with gyden := { g with commit := c.target + 1, commitN := 16, commitT := c.target, commitE := none } })
        else .next (settleJobs (commitAt s (nextEdge s)))

/-- A node's part of a system-wide change, which only the master's COMMIT commits. -/
def nodePart (s : Block) (c : ModeChange) : Bool := c.system && !flag s F.GYDEN_CONFIG_MASTER

/-- MODE_DEADLINE (R352, Table 16-2): the deadline has passed and a party has not reported, or, on a node, no COMMIT
has come. -/
def effModeDeadline (s : Block) : Out :=
  match s.sys.change with
  | none => .next s
  | some c =>
    if c.edge.isSome || (allReported c && !nodePart s c) || decide (s.now < c.due) then .next s
    else
      let miss := (c.parties.filter (fun p => !c.ready.contains p)).foldl min 0xFFFF
      let r := match c.refusal with
        | some r => r
        | none => (1, if miss = 0x300 then 0xFFFF else miss)
      .next (settleJobs (abandonMode s r.1 r.2 Sts.state))

/-! ## Application (R352, R354, R374) -/

/-- When party `p` applies a change committed at `e`. -/
def applyTime (s : Block) (p e : Nat) : Nat :=
  if p < 0x80 then boundary s p (e + 4000) else e + 4000

/-- Party `p` can apply the change now. -/
def canApply (s : Block) (c : ModeChange) (e p : Nat) : Bool :=
  c.parties.contains p && !c.applied.contains p && decide (applyTime s p e ≤ s.sysTime) &&
    (if p < 64 then rgnReachable s (regionOf p)
     else if 0x400 ≤ p then
       (Tbl.get (fun _ => ({} : NodeSt)) s.gyden.nodes (p - 0x400)).mode == c.target
     else true)

/-- Party `p` applies the change. -/
def applyParty (s : Block) (p : Nat) : Block :=
  match s.sys.change with
  | none => s
  | some c =>
    match c.edge with
    | none => s
    | some e =>
      if !canApply s c e p then s
      else
        let c := { c with
          applied := p :: c.applied, last := s.sysTime,
          first := if c.applied.isEmpty then s.sysTime else c.first }
        let s := if p < 64 then setUnit s p { unit s p with mode := c.target }
          else if p < 0x80 then setLane s (p - 96) { lane s (p - 96) with mode := c.target }
          else if p = 0x300 then { s with sys := { s.sys with cdie := c.target } }
          else s
        setF { s with sys := { s.sys with change := some c } } F.GLOBAL_MODE_CUR 15

/-- The parties that one MODE_APPLY names. -/
def partyCodes : Party → List Nat
  | .cdie => [0x300]
  | .unit u => [u]
  | .lanes c => [96 + c]
  | .region i => regionUnits i
  | .node n => [0x400 + n]

/-- A party exists. -/
def partyOk : Party → Bool
  | .cdie => true
  | .unit u => decide (u < 64)
  | .lanes c => decide (c < 8)
  | .region i => decide (i < 4)
  | .node n => decide (n < 16)

/-- MODE_APPLY (R352, R354): the parties named that have come to their application apply the mode; after the last
of all the change is done. -/
def effModeApply (p : Party) (s : Block) : Out :=
  if !partyOk p then .fault .noSuchObject else .next (settleJobs (forEach (partyCodes p) s applyParty))

/-! ## MODE_SET and MODE_QUERY (R351) -/

/-- The changes a MODE_SET may make in two phases. -/
def modePair (a b : Nat) : Bool :=
  [(1, 2), (1, 3), (2, 1), (2, 3), (3, 1), (3, 2), (1, 5)].contains (a, b)

/-- MODE_SET's checks and effect. -/
def modeSetBody (s : Block) (p : List Word) : CmdRes :=
  let t := pb p 1 2 0
  let system := pb p 1 8 8 = 1
  let master := flag s F.GYDEN_CONFIG_EN && flag s F.GYDEN_CONFIG_MASTER
  notInBoot s <|
    if t = 0 || decide (5 < t) then .fail s Sts.badParam
    else if system && (!master || t == 5) then .fail s Sts.badParam
    else if t = modeOf s then .okay s
    else if t = 4 then .okay (packageSafe s 2)
    else if !modePair (modeOf s) t then .fail s Sts.state
    else
      let s := startChange s t system (pw p 2)
      match s.sys.change with
      | none => .okay s
      | some c =>
        match c.refusal with
        | some r =>
          if allReported c then .done (abandonMode s r.1 r.2 Sts.state) Sts.state r.2 1 r.1
          else .wait s [] 0 0
        | none => .wait s [] 0 0

/-- MODE_SET (0x08). -/
def effModeSet (h : Hdr) (p : List Word) (s : Block) : Out :=
  runCmd s h Op.modeSet p [] (· == 3) [0x107, 0xFFFF] modeSetBody

/-- MODE_QUERY (0x09). -/
def effModeQuery (h : Hdr) (p : List Word) (s : Block) : Out :=
  runCmd s h 0x09 p [] (· == 1) [] (fun s _ => notInBoot s
    (.done s Sts.ok 0 1 (getF s F.GLOBAL_MODE_CUR + getF s F.GLOBAL_MODE_RGN_SAFE * 2 ^ 12)))

/-! ## SAFE (R302, R357, R358) -/

/-- A SAFE_ALL read from URGENT while its step must wait: during a reload, or behind a step of BACKGROUND (R302, R309). -/
def safeAtOnce (s : Block) (h : Hdr) : Bool :=
  let u := getF s F.HOSTCMD_STATE_UE_STATE
  h.ring == 0 && (u == 3 || (u == 2 && bgFirst s && (inProgress s 0).isNone)) && flag s F.HOSTCMD_CTRL_EN && flag s F.HOSTCMD_SQ0_CFG_EN &&
    ringReadable s 0 && h.len == 1 && sqAvail s 0 != 0 && packetHeld s h 0xF1 []

/-- SAFE_ALL (0xF1). -/
def effSafeAll (h : Hdr) (p : List Word) (s : Block) : Out :=
  if safeAtOnce s h then .next (settleJobs (packageSafe s 1))
  else runCmd s h 0xF1 p [] (· == 1) [] (fun s _ => notInBoot s (.okay (packageSafe (finishFreq s) 1)))

/-- SAFE_N_ASSERT (R357): the filter accepts a low level. -/
def effSafeNAssert (s : Block) : Out :=
  if flag s F.GLOBAL_PINS_SAFE then .next s
  else
    let s := raise { s with boot := { s.boot with safeLow := true } } F.GLOBAL_PINS_SAFE
    .next (settleJobs (packageSafe (finishFreq (patrolLog s 0x25 0 0 0)) 3))

/-- SAFE_N_RELEASE (R357): the filter accepts a high level. -/
def effSafeNRelease (s : Block) : Out :=
  .next (setF { s with boot := { s.boot with safeLow := false } } F.GLOBAL_PINS_SAFE 0)

/-- A node's SAFE is received: a package SAFE with cause 12 where SAFE_ACCEPT is 1 (R358); a change over every node that
is not yet committed ends with reason 6 in any case (Table 16-2). -/
def safeFromNode (s : Block) : Block :=
  if flag s F.POWER_CTRL_SAFE_ACCEPT then packageSafe s 12
  else
    match s.sys.change with
    | some c => if c.system && c.edge.isNone then abandonMode s 6 0xFFFF Sts.aborted else s
    | none => s

/-- SAFE_ANNOUNCEMENT (R358): received by a node on the bus. -/
def effSafeAnnouncement (node : Nat) (s : Block) : Out :=
  withIdx 16 node <|
    .next (if flag s F.GYDEN_CONFIG_EN && getF s F.GYDEN_STATE_LINK == 2 then settleJobs (safeFromNode s)
      else s)

/-! ## RESUME_FROM_SAFE (R25, R359) -/

/-- A sample loop is locked. -/
def loopLocked (s : Block) (l : Nat) : Bool := flag s (F.CLOCK_L0_LSTAT_LOCKED.at (0x20 * l))

/-- A die's hottest sensor is above its PATROL limit. -/
def dieHot (s : Block) (d : Nat) : Bool :=
  decide ((getF s ⟨R.PATROL_TEMP_LIM, 8 * d + 7, 8 * d⟩ : Int) <
    signed 8 (getF s ⟨R.PATROL_TEMP_NOW, 8 * d + 7, 8 * d⟩))

/-- The first unmet condition of a package resume, 0 where all are met. -/
def resumeUnmet (s : Block) : Nat :=
  if flag s F.GLOBAL_PINS_SAFE then 1
  else if dramBad s then 2
  else if (List.range 3).any (dieHot s) then 3
  else if getF s F.HOSTCMD_STATE_UE_STATE != 2 then 4
  else if getF s F.POWER_SAFE_CAUSE_CAUSE = 8 && !(loopLocked s 1 && loopLocked s 2) then 5
  else 0

/-- Region `i` in SAFE meets R25: its link is healthy, and has been for 10 ms. -/
def rgnHealthy (s : Block) (i : Nat) : Bool :=
  rgnReachable s i && decide (Tbl.get (fun _ => 0) s.sys.rgnUp i + 10000000 ≤ s.now)

/-- Unit `u` is one that PATROL disabled. -/
def patrolDisabled (s : Block) (u : Nat) : Bool :=
  flag s (if u < 32 then ⟨R.PATROL_DIS_PD_LO, u, u⟩ else ⟨R.PATROL_DIS_PD_HI, u - 32, u - 32⟩)

/-- The bits of a register that a host programs and no strobe buffers. -/
def plainBits (d : RegDef) : Nat := d.rw - (d.rw &&& d.buf)

/-- Unit `u`'s programmed registers reach its die (R314). -/
def copyUnit (s : Block) (u : Nat) : Block :=
  let old := (getW s (unitBase u + R.A_CTRL)).toNat
  let s := forEach (unitRegs u) s (fun s d =>
    let a := unitBase u + d.off
    unflip (putA s a (plainBits d) (getP s a).toNat) a (plainBits d) false)
  if u < 64 then syncLatency s u
  else if old = (getW s (unitBase u + R.A_CTRL)).toNat then s
  else aCtrlChanged s (u - 64) old

/-- Region `i` leaves its SAFE: every programmed field of its units is copied to the die before (R314); a unit that
a start-up left in PARK for want of its link, with a valid record, begins its ramp to REST. -/
def leaveRegion (s : Block) (i : Nat) : Block :=
  let b := 2 ^ i
  let s := { s with linkQ := s.linkQ.filter (fun w => w.rgn != i) }
  let s := forEach (regionUnits i ++ (List.range 8).map (· + 64 + 8 * i)) s copyUnit
  let s := forEach ((regionUnits i).filter (fun u => ostate s u == 0 && !(unit s u).afterDis &&
      (unit s u).rc.isNone && !flag s (uF u F.P_STATUS_NVM_REST_BAD))) s
    (fun s u => schedUnit s u (s.sysTime + 1) (if modeOf s = 4 then .newFault else .newRest))
  let s := setF s F.PATROL_RGN_STATE_SAFE (getF s F.PATROL_RGN_STATE_SAFE - b)
  let s := setF s F.PATROL_RGN_STATE_HELD (mergeMask (getF s F.PATROL_RGN_STATE_HELD) 0 b)
  let s := setF s F.GLOBAL_MODE_RGN_SAFE (getF s F.PATROL_RGN_STATE_SAFE)
  let s := forEach (regionUnits i) s (fun s u => setUnit s u { unit s u with mode := modeOf s })
  patrolLog s 0x23 0 0 i

/-- A SAFE has sent unit `u` to FAULT, or will at its next boundary. -/
def inSafeFault (s : Block) (u : Nat) : Bool :=
  ostate s u == 4 || toFault s u || (unit s u).trans.any (fun p => decide (p.2 = .fault true))

/-- The units that a SAFE sent to FAULT and that may leave it now are to ramp to REST, once they are there (R25, R359). -/
def resumeUnits (s : Block) (us : List Nat) : Block :=
  forEach (us.filter (fun u => !patrolDisabled s u && inSafeFault s u)) s
    (fun s u => schedUnit s u (s.sysTime + 1) .resume)

/-- The package leaves SAFE for STANDBY; a cluster in SAFE turns to IDLE at its first frame boundary at or after the
commit edge plus 4,000 ns (R169). -/
def leavePackage (s : Block) : Block :=
  let s := { s with sys := { s.sys with cdie := 1 } }
  let s := patrolLog (setF s F.GLOBAL_MODE_CUR 1) 0x23 0 0 0
  forEach (List.range 8) s (fun s c =>
    if getF s (lF c F.LC_STATE_CSTATE) = 4 then schedLane s c (nextEdge s + 4000) .resume else s)

/-- RESUME_FROM_SAFE's checks and effect. -/
def resumeBody (s : Block) (p : List Word) : CmdRes :=
  notInBoot s <|
    let pkg := pb p 1 8 8 = 1 && modeOf s = 4
    let named := (bitList (pb p 1 3 0) 4).filter (fun i => (getF s F.PATROL_RGN_STATE_SAFE).testBit i)
    let n := resumeUnmet s
    if pkg && n != 0 then .failD s Sts.state n
    else
      match named.find? (fun i => !rgnHealthy s i) with
      | some i => .failD s Sts.state (0x200 + i)
      | none =>
        let s := forEach named s leaveRegion
        let s := if pkg then leavePackage s else s
        let free := (List.range 64).filter (fun u =>
          !(getF s F.PATROL_RGN_STATE_SAFE).testBit (regionOf u) &&
            (decide pkg || named.contains (regionOf u)))
        let s := if modeOf s = 4 then s else resumeUnits s free
        .wait s [] 0 0

/-- RESUME_FROM_SAFE (0xF2). -/
def effResumeFromSafe (h : Hdr) (p : List Word) (s : Block) : Out :=
  match runCmd s h Op.resumeFromSafe p [] (· == 2) [0x10F] resumeBody with
  | .next t => .next (settleJobs t)
  | o => o

/-! ## The meanings -/

/-- MODE_COMMIT (R352, R353, R355), done to the block; the queue stays. -/
def execModeCommit (s : State) : Host.Outcome State Fault Refusal :=
  onBlock s (effModeCommit)

/-- MODE_DEADLINE (R352, Table 16-2), done to the block; the queue stays. -/
def execModeDeadline (s : State) : Host.Outcome State Fault Refusal :=
  onBlock s (effModeDeadline)

/-- MODE_APPLY (R352, R354), done to the block; the queue stays. -/
def execModeApply (p : Party) (s : State) : Host.Outcome State Fault Refusal :=
  onBlock s (effModeApply p)

/-- MODE_SET (0x08), done to the block; the queue stays. -/
def execModeSet (h : Hdr) (p : List Word) (s : State) : Host.Outcome State Fault Refusal :=
  onBlock s (effModeSet h p)

/-- MODE_QUERY (0x09), done to the block; the queue stays. -/
def execModeQuery (h : Hdr) (p : List Word) (s : State) : Host.Outcome State Fault Refusal :=
  onBlock s (effModeQuery h p)

/-- SAFE_ALL (0xF1), done to the block; the queue stays. -/
def execSafeAll (h : Hdr) (p : List Word) (s : State) : Host.Outcome State Fault Refusal :=
  onBlock s (effSafeAll h p)

/-- SAFE_N_ASSERT (R357), done to the block; the queue stays. -/
def execSafeNAssert (s : State) : Host.Outcome State Fault Refusal :=
  onBlock s (effSafeNAssert)

/-- SAFE_N_RELEASE (R357), done to the block; the queue stays. -/
def execSafeNRelease (s : State) : Host.Outcome State Fault Refusal :=
  onBlock s (effSafeNRelease)

/-- SAFE_ANNOUNCEMENT (R358), done to the block; the queue stays. -/
def execSafeAnnouncement (node : Nat) (s : State) : Host.Outcome State Fault Refusal :=
  onBlock s (effSafeAnnouncement node)

/-- RESUME_FROM_SAFE (0xF2), done to the block; the queue stays. -/
def execResumeFromSafe (h : Hdr) (p : List Word) (s : State) : Host.Outcome State Fault Refusal :=
  onBlock s (effResumeFromSafe h p)

end Sys2Proof.Machine
end

