-- ==== Sys2Proof/Machine/Clock.lean ====
section
/-! DEFINITION. Clocks (R238 to R254): the sample loops' lock, GLIDE, relock, SYSTIME steps, backup timing. -/

namespace Sys2Proof.Machine

/-! ## Loops -/

/-- A field of loop `l` (0 SYSPLL, 1 SPLL-A, 2 SPLL-B, 3 DRAM PLL). -/
def lpF (l : Nat) (f : Fld) : Fld := f.at (0x20 * l)

/-- LSTATE of loop `l`. -/
def loopState (s : Block) (l : Nat) : Nat := getF s (lpF l F.CLOCK_L0_LSTAT_LSTATE)

/-- The clock state changed. -/
def setClock (s : Block) (c : ClockSt) : Block := { s with clock := c }

/-- Loop `l` in state `st`: LOCKED holds in state 2 alone. A loop that acquires counts its wait from now (R243), and one
that enters GLIDE holds its tuning word (R245). -/
def setLoop (s : Block) (l st : Nat) : Block :=
  let s := setB (setF s (lpF l F.CLOCK_L0_LSTAT_LSTATE) st) (lpF l F.CLOCK_L0_LSTAT_LOCKED) (st == 2)
  let c := s.clock
  let c := if st = 1 || st = 5 then { c with acqAt := Tbl.set (fun _ => 0) c.acqAt l (s.now + 1) } else c
  if st = 3 then useFree (setClock s { c with tune := Tbl.set (fun _ => 0) c.tune l (freeNat s 24) })
  else setClock s c

/-- Both sample loops in state `st`; a loop replaced by backup stays so until it holds lock again (R251). -/
def setLoops (s : Block) (st : Nat) : Block :=
  forEach [1, 2] s (fun s l => if loopState s l = 5 then s else setLoop s l st)

/-- Both sample loops are locked. -/
def bothLocked (s : Block) : Bool := loopState s 1 == 2 && loopState s 2 == 2

/-- A node on the bus that is not its master. -/
def slaveNode (s : Block) : Bool := flag s F.GYDEN_CONFIG_EN && !flag s F.GYDEN_CONFIG_MASTER

/-- The sample loops are neither in GLIDE nor steering, and no domain is on backup timing. -/
def sampleQuiet (s : Block) : Bool :=
  !flag s F.CLOCK_STATE_GLIDE && !flag s F.CLOCK_STATE_STEERING && !flag s F.CLOCK_STATE_BACKUP

/-- No loop is in GLIDE, steering or backup (R253). -/
def clockQuiet (s : Block) : Bool := sampleQuiet s && (List.range 4).all (fun l => loopState s l != 3)

/-- The edges of R241 in ps of SYSTIME: the `k`-th rising edge of REF_IN, or of the crystal where that is selected, at its
ball, and that of REF_OUT, which runs while it is enabled and not gated (R245, R255). -/
def refInEdge (s : Block) (k : Nat) : Int :=
  (k : Int) * (if getF s F.CLOCK_CTRL_REFSEL = 0 then 40000 else if getF s F.CLOCK_CTRL_REFSEL = 2 then 10000 else 100000) -
    signed 16 (getF s F.CLOCK_REFIN_TRIM_PS)
def refOutEdge (s : Block) (k : Nat) : Nat :=
  k * (if flag s F.CLOCK_REFOUT_FREQ then 10000 else 100000) + 100 * getF s F.CLOCK_REFOUT_DLY
def refOutOn (s : Block) : Bool := flag s F.CLOCK_REFOUT_EN && flag s F.CLOCK_STATE_EXPORT

/-- The level of LOCK_A (1) or LOCK_B (2) (R244). -/
def lockPin (s : Block) (l : Nat) : Bool :=
  let m := getF s (if l = 1 then F.CLOCK_LOCK_PIN_MODE_A else F.CLOCK_LOCK_PIN_MODE_B)
  if m = 1 then false else if m = 2 then true else loopState s l == 2 && sampleQuiet s

/-- TRACEABLE (R253) with the time it has read 0, and the lock pins (R244). -/
def syncClock (s : Block) : Block :=
  let t := bothLocked s && !s.clock.refLost && clockQuiet s &&
    (!slaveNode s || getF s F.GYDEN_STATE_LINK == 2)
  let c := s.clock
  let s :=
    if t then
      if c.untrAt = 0 then s
      else setClock s { c with untr := c.untr + (s.now + 1 - c.untrAt), untrAt := 0 }
    else if c.untrAt = 0 then setClock s { c with untrAt := s.now + 1 }
    else s
  let old := flag s F.CLOCK_STATE_TRACEABLE
  let h := if s.acq.traced.isEmpty then [(0, old)] else s.acq.traced
  let s := if old = t then s else { s with acq := { s.acq with traced := (s.sysTime, t) :: h } }
  let s := setB s F.CLOCK_STATE_TRACEABLE t
  setB (setB s F.GLOBAL_PINS_LOCK_A (lockPin s 1)) F.GLOBAL_PINS_LOCK_B (lockPin s 2)

/-- TRACE_TIME as it reads, in ms. -/
def traceTime (s : Block) : Nat :=
  (s.clock.untr + (if s.clock.untrAt = 0 then 0 else s.now + 1 - s.clock.untrAt)) / 1000000

/-- GLIDE_TIME as it reads, in ms. -/
def glideTime (s : Block) : Nat :=
  if s.clock.glideAt = 0 then getF s F.CLOCK_GLIDE_TIME_MS else (s.now + 1 - s.clock.glideAt) / 1000000

/-- A clock event: EVT holds its SYSTIME, and PATROL's clock-glitch class counts it (R243). -/
def clockEvent (s : Block) : Block :=
  patrolEvent (set64 s F.CLOCK_EVT_LO_NS F.CLOCK_EVT_HI_NS s.sysTime) 4 0

/-- Any sequencer or capture of the package is armed. -/
def anyArmed (s : Block) : Bool := anySeqArmed s || anyCapArmed s

/-! ## GLIDE -/

/-- SLEW in 0.01 ppm (R248): 0 acts as 1, above 100 as 100. -/
def slewRate (w : Nat) : Nat := min 100 (max 1 (natBits w 6 0))

/-- STEER_REM as it stands when SLEWCFG has held the word `w` since `steerAt`: it nears zero by SLEW × the time (R248). -/
def steerRem (s : Block) (w : Nat) : Int :=
  let r := signed 32 (getF s F.CLOCK_STEER_REM_PS)
  if s.clock.steerAt = 0 then r
  else
    let d : Int := (s.now + 1 - s.clock.steerAt) * slewRate w / 100000
    if r < 0 then min 0 (r + d) else max 0 (r - d)

/-- The steering done so far is counted at the word `w` of SLEWCFG; `on`: it goes on from now. -/
def steerCount (s : Block) (w : Nat) (on : Bool) : Block :=
  let s := setF s F.CLOCK_STEER_REM_PS (unsigned 32 (steerRem s w))
  setClock s { s.clock with steerAt := if on then s.now + 1 else 0 }

/-- The word of SLEWCFG. -/
def slewWord (s : Block) : Nat := (getW s R.CLOCK_SLEWCFG).toNat

/-- GLIDE ends: its duration is recorded. -/
def endGlide (s : Block) : Block :=
  let s := setF (setF s F.CLOCK_GLIDE_TIME_MS (glideTime s)) F.CLOCK_STATE_GLIDE 0
  setClock s { s.clock with glideAt := 0 }

/-- The sample loops enter GLIDE (R245): exported clocks are gated, steering pauses with STEER_REM kept (R254), a relock in
course ends. A loop replaced by backup is in no GLIDE; the others enter it also while the domains are on backup. -/
def enterGlide (s : Block) : Block :=
  let s := if flag s F.CLOCK_STATE_STEERING then steerCount s (slewWord s) false else s
  let s := setF (setF s F.CLOCK_STATE_EXPORT 0) F.CLOCK_STATE_STEERING 0
  let s := setF s F.CLOCK_STATE_RELOCK_PEND 0
  let s := setClock s { s.clock with policy := none, stepAt := 0, closing := false, modulo := none }
  if flag s F.CLOCK_STATE_GLIDE || (loopState s 1 == 5 && loopState s 2 == 5) then s
  else
    let s := setLoops (setF (incF s F.CLOCK_GLIDE_COUNT_COUNT) F.CLOCK_STATE_GLIDE 1) 3
    setClock s { s.clock with glideAt := s.now + 1 }

/-- A PLL_RELOCK waiting ends ABORTED (R250). -/
def abortRelock (s : Block) : Block :=
  match s.cmd.jobs.find? (fun j => j.op == Op.pllRelock) with
  | some j => endJob s j Sts.aborted 0
  | none => s

/-- The selected reference is lost (R245, R254). -/
def refLoss (s : Block) (offTolerance : Bool) : Block :=
  let s := raise s F.CLOCK_STATUS_REF_LOST
  let s := if offTolerance then raise s F.CLOCK_STATUS_REF_FREQ else s
  let s := setClock s { s.clock with refLost := true, measuring := false }
  let s := abortRelock (enterGlide s)
  clockEvent (syncClock s)

/-- REF_LOST: a reference already lost is not lost again. -/
def effRefLost (offTolerance : Bool) (s : Block) : Out :=
  .next (if s.clock.refLost then s else settleJobs (refLoss s offTolerance))

/-- PHASE_JUMP (R246, R254): the row says that the phase error of a locked or steering loop was outside its lock window for
four phase-detector cycles. GLIDE, with the reference treated as returned; in the cycle of a loss of lock that prevails. -/
def effPhaseJump (s : Block) : Out :=
  let on := fun l => loopState s l == 2 || loopState s l == 4
  if s.clock.refLost || !(on 1 || on 2) || s.clock.lolAt == cycleOf s + 1 then .next s
  else
    let s := incF (raise s F.CLOCK_STATUS_PHASE_JUMP) F.CLOCK_JUMP_COUNT_COUNT
    let s := abortRelock (enterGlide s)
    let s := setClock s { s.clock with measuring := true }
    .next (settleJobs (clockEvent (syncClock s)))

/-- REF_RETURN (R247): the 64-cycle measurement begins; a loop replaced by backup is measured when it holds lock again
(R251). -/
def effRefReturn (s : Block) : Out :=
  if !s.clock.refLost then .next s
  else
    .next (setClock s { s.clock with
      refLost := false
      measuring := flag s F.CLOCK_STATE_GLIDE || (flag s F.CLOCK_STATE_BACKUP && !s.clock.measuring &&
        loopState s 1 != 5 && loopState s 2 != 5) })

/-! ## Relock policies (R247, R248) -/

/-- The reference period in ps. -/
def refPeriod (s : Block) : Int :=
  match getF s F.CLOCK_CTRL_REFSEL with
  | 0 => 40000
  | 2 => 10000
  | _ => 100000

/-- Policy `p` begins on the pending relock (Table 11-6). -/
def startPolicy (s : Block) (p : Nat) : Block :=
  let s := setF s F.CLOCK_STATE_RELOCK_PEND (if p = 3 then 1 else 0)
  match p with
  | 0 =>
    let d := s.clock.delta
    let s := setLoops (endGlide s) 4
    let s := setF (setF s F.CLOCK_STATE_STEERING 1) F.CLOCK_STEER_REM_PS (unsigned 32 d)
    setClock s { s.clock with policy := some 0, closing := false, steerAt := s.now + 1 }
  | 1 =>
    let s := setLoops (endGlide s) 1
    setClock s { s.clock with policy := some 1, closing := false }
  | 2 =>
    let s := setLoops (endGlide s) 1
    setClock s { s.clock with policy := some 2, closing := false, stepAt := ceilTo (s.sysTime + 1) 1000 + 1 }
  | _ => setClock s { s.clock with policy := some 3 }

/-- A step of δ is beyond the limit of R249 as things stand. -/
def stepTooLarge (s : Block) : Bool :=
  anyArmed s && (decide (20000000 < s.clock.delta) || decide (s.clock.delta < -20000000))

/-- δ is measured: it is recorded, and the policy that RELOCK selects for it applies. -/
def finalDelta (s : Block) (d : Int) : Block :=
  let s := setF s F.CLOCK_OFFSET_LO_PS (unsigned 48 d)
  let s := setF s F.CLOCK_OFFSET_HI_PS (unsigned 48 d >>> 32)
  let s := set64 s F.CLOCK_EVT_LO_NS F.CLOCK_EVT_HI_NS s.sysTime
  let s := setClock s { s.clock with
    delta := d, measuring := false, modulo := none, grp := getF s F.CLOCK_RELOCK_GRP }
  let th : Int := getF s F.CLOCK_RELOCK_THRESH * 1000
  let p := getF s (if -th < d && decide (d < th) then F.CLOCK_RELOCK_SMALL else F.CLOCK_RELOCK_LARGE)
  let p := if (p = 1 || p = 2) && stepTooLarge s then 3 else p
  syncClock (startPolicy s p)

/-- OFFSET_MEASURED (R247): the phase averaged over 64 reference cycles gives δ modulo the reference period; a
Gyden node waits for the next GSYNC to know the whole periods. -/
def effOffsetMeasured (deltaPs : Int) (s : Block) : Out :=
  if !s.clock.measuring then .next s
  else
    let t := refPeriod s
    let m := (deltaPs + t / 2) % t - t / 2
    if slaveNode s then .next (setClock s { s.clock with measuring := false, modulo := some m })
    else .next (settleJobs (finalDelta s m))

/-- The whole periods from a GSYNC received, with its error against the local count in ps: δ is absolute. -/
def gsyncDelta (s : Block) (syncErr : Int) : Block :=
  match s.clock.modulo with
  | none => s
  | some m => finalDelta s (m + refPeriod s * divRound (syncErr - m) (refPeriod s))

/-- STEER_DONE (R248): STEER_REM has reached zero; the frequency offset is removed, and the loops may declare lock. -/
def effSteerDone (s : Block) : Out :=
  if !flag s F.CLOCK_STATE_STEERING || steerRem s (slewWord s) != 0 then .next s
  else
    let s := setF (setF s F.CLOCK_STEER_REM_PS 0) F.CLOCK_STATE_STEERING 0
    let s := setLoops s 1
    .next (syncClock (setClock s { s.clock with closing := true, steerAt := 0 }))

/-! ## SYSTIME steps (R249) -/

/-- The pending step is due: under STEP_NOW at its instant, under STEP_AT_GATE inside a gate wait of the group that
has at least one wait frame. -/
def stepDue (s : Block) : Bool :=
  match s.clock.policy with
  | some 2 => s.clock.stepAt != 0 && decide (s.clock.stepAt ≤ s.sysTime + 1)
  | some 1 =>
    let q := seqr s s.clock.grp
    !s.clock.closing && (q.mode == 3 || q.mode == 4) && q.release != some q.waitFrom &&
      decide (bt s s.clock.grp q.frame ≤ s.sysTime)
  | _ => false

/-- SYSTIME moved by `d` ps, with its fraction. -/
def moveTime (s : Block) (d : Int) : Block :=
  let t : Int := (s.sysTime : Int) * 65536 + s.gyden.frac + d * 65536 / 1000
  let n := t.toNat
  { s with sysTime := n / 65536, gyden := { s.gyden with frac := n % 65536 } }

/-- A step beyond the limit of R249 falls back to HOST: the relock is pending again, and a PLL_RELOCK that chose it fails
with STATE (R250). -/
def stepRefused (s : Block) : Block :=
  let s := setF (setClock s { s.clock with policy := some 3, stepAt := 0 }) F.CLOCK_STATE_RELOCK_PEND 1
  match s.cmd.jobs.find? (fun j => j.op == Op.pllRelock) with
  | some j => endJob s j Sts.state 0
  | none => s

/-- The release of the group that absorbs a step inside its wait, placed under R138 on the moved grid: the first frame whose
boundary lies at or after the event's edge, moved with SYSTIME, plus 5,000 ns, and is not skipped (R249). `t0` is SYSTIME
before the step. -/
def moveRelease (s : Block) (t0 : Nat) (fwd : Bool) : Block :=
  let n := s.clock.grp
  let q := seqr s n
  if s.clock.policy != some 1 || q.release.isNone || !(q.mode == 3 || q.mode == 4) then s
  else
    let e := q.relEdge + 5000 + s.sysTime - t0
    let r := frameFrom s n (if fwd then max e s.sysTime else e)
    setSeq s n { q with release := some (max (max q.waitFrom q.frame) r) }

/-- SYSTIME_STEP (R249): SYSTIME steps by δ. Frames and ticks in skipped SYSTIME are consumed; boundaries and ticks
already passed are not repeated; capture records that span the step carry TSTEP. -/
def effSystimeStep (s : Block) : Out :=
  if !stepDue s then .next s
  else if stepTooLarge s then .next (settleJobs (stepRefused s))
  else
    let t0 := s.sysTime
    let s := incF (raise s F.CLOCK_STATUS_STEP) F.CLOCK_STEP_COUNT_COUNT
    let s := moveTime s s.clock.delta
    let fwd := decide (t0 < s.sysTime)
    let s := setClock s { s.clock with
      stepAt := 0, closing := true, skipFrom := if fwd then t0 else 0, skipTo := if fwd then s.sysTime else 0 }
    let s := moveRelease s t0 fwd
    let s := forEach ((List.range 4).filter (capRuns s)) s (fun s t =>
      let p := capPeriod s t
      let m := if fwd then (s.sysTime + p - 1) / p else t0 / p + 1
      setCap s t { cap s t with gaps := (cap s t).gaps ++ [m] })
    .next (syncClock (setLoops s 1))

/-! ## Backup timing (R251) -/

/-- The instant at which frame domain `d` switches: its own next boundary. -/
def domainSwitch (s : Block) (d : Nat) : Nat :=
  let after := fun (p : Nat) => (s.sysTime / p + 1) * p
  if d < 16 then after (clusterT s d)
  else if d < 24 then after (unitT s (96 + (d - 16)))
  else if d < 32 then
    let ns := (List.range 4).map (· + 4 * (d - 24))
    after ((ns.filter (fun n => flag s (aF n F.A_CTRL_EN))).foldl (fun m n => max m (samplePeriod s n)) 500)
  else after 25

/-- Every frame domain is to switch to (`on`) or from backup timing. -/
def switchDomains (s : Block) (on : Bool) : Block :=
  let l := (List.range 33).map (fun d => (d, domainSwitch s d, on))
  setB (setClock s { s.clock with domains := l }) F.CLOCK_STATE_BACKUP on

/-- What is left of GLIDE and of a relock ends, a loop that was in it acquires, and the exported clocks are gated. -/
def dropRelock (s : Block) : Block :=
  let s := if flag s F.CLOCK_STATE_GLIDE then endGlide s else s
  let s := if flag s F.CLOCK_STATE_STEERING then steerCount s (slewWord s) false else s
  let s := setF (setF s F.CLOCK_STATE_STEERING 0) F.CLOCK_STATE_EXPORT 0
  let s := setF s F.CLOCK_STATE_RELOCK_PEND 0
  let s := forEach [1, 2] s (fun s l => if loopState s l = 3 || loopState s l = 4 then setLoop s l 1 else s)
  setClock s { s.clock with policy := none, stepAt := 0, closing := false, measuring := false, modulo := none }

/-- The domains go to backup timing, which needs the crystal (R252). -/
def enterBackup (s : Block) : Block :=
  let s := dropRelock s
  if flag s F.CLOCK_STATE_BACKUP || s.clock.xtalLost then s
  else switchDomains (raise s F.CLOCK_STATUS_BACKUP) true

/-- LOSS_OF_LOCK (R243, R251, R254): the tuning word reaches the end of its range (`rail`), or an acquisition has gone on
for 10 ms. Of a sample loop, the domains go to backup timing, or, with BACKUP_EN at 0 or no crystal to make it, the
package to SAFE. -/
def effLossOfLock (loop : Nat) (rail : Bool) (s : Block) : Out :=
  withIdx 4 loop <|
    let st := loopState s loop
    let late := st == 1 && decide (Tbl.get (fun _ => 0) s.clock.acqAt loop + 10000000 ≤ s.now + 1)
    if st = 0 || st = 5 || !(rail || late) then .next s
    else
      let s := incF (raise s F.CLOCK_STATUS_LOL) (lpF loop F.CLOCK_L0_LOLCNT_COUNT)
      let s := setClock s { s.clock with lolAt := cycleOf s + 1 }
      let s :=
        if loop = 0 || loop = 3 then setLoop s loop 1
        else if flag s F.CLOCK_CTRL_BACKUP_EN && !s.clock.xtalLost then setLoop (enterBackup s) loop 5
        else
          let s := setLoop s loop 1
          let s := if flag s F.CLOCK_STATE_GLIDE && !(loopState s 1 == 3 || loopState s 2 == 3) then endGlide s else s
          packageSafe s 8
      .next (settleJobs (clockEvent (syncClock s)))

/-! ## Lock (R243) -/

/-- The phase-detector period of loop `l` in ns: R reference periods (R239). -/
def pfdPeriod (s : Block) (l : Nat) : Nat :=
  (if l = 0 || l = 3 then 40 else (refPeriod s / 1000).toNat) * getF s (lpF l F.CLOCK_L0_DIV_R)

/-- The wait of R243 of loop `l`: its phase error, at most `worst` ps in that time, has stayed within the window for
2^LOGN phase-detector cycles. -/
def lockWait (s : Block) (l worst : Nat) : Bool :=
  decide (worst ≤ 250 * getF s (lpF l F.CLOCK_L0_LCFG_WIN)) &&
    decide (Tbl.get (fun _ => 0) s.clock.acqAt l + 2 ^ getF s (lpF l F.CLOCK_L0_LCFG_LOGN) * pfdPeriod s l ≤ s.now + 1)

/-- Loop `l` may declare lock now. -/
def mayLock (s : Block) (l worst : Nat) : Bool :=
  let st := loopState s l
  lockWait s l worst &&
    (if l = 0 || l = 3 then st == 1 && !s.clock.xtalLost
    else !s.clock.refLost && (st == 5 || (st == 1 && (s.clock.policy.isNone || s.clock.closing))))

/-- Both sample loops hold lock in service: exported clocks return, and the domains leave backup timing. A lock that
follows a selection of the reference releases the output dividers at a SYSTIME multiple of 1,000 ns (R241). -/
def lockedAgain (s : Block) : Block :=
  let s := setF (setF s F.CLOCK_STATE_RELOCK_PEND 0) F.CLOCK_STATE_EXPORT 1
  let s := if flag s F.CLOCK_STATE_BACKUP then switchDomains s false else s
  let rel := if s.clock.policy.isNone then ceilTo s.sysTime 1000 else s.clock.release
  let s := setClock s { s.clock with policy := none, closing := false, stepAt := 0, release := rel }
  { s with gyden := { s.gyden with joinBy := 0 } }

/-- LOCK_DECLARED (R243, R248, R251): a loop on backup timing that holds lock again has its δ measured first, and
returns to service under the relock policies. -/
def effLockDeclared (loop worst : Nat) (s : Block) : Out :=
  withIdx 4 loop <|
    if !mayLock s loop worst then .next s
    else
      if loopState s loop = 5 then
        let s := setLoop s loop 1
        .next (setClock s { s.clock with measuring := true, policy := some 3 })
      else
        let s := setLoop s loop 2
        let s := if loop != 0 && loop != 3 && bothLocked s then lockedAgain s else s
        .next (settleJobs (syncClock s))

/-- XTAL_FAIL (R252). -/
def effXtalFail (s : Block) : Out :=
  if s.clock.xtalLost then .next s
  else
    let s := setLoop (setLoop (raise s F.CLOCK_STATUS_XTAL_FAIL) 0 3) 3 3
    let s := setClock s { s.clock with xtalLost := true }
    .next (settleJobs (clockEvent (syncClock s)))

/-- X32_STOP (R383): the 32.768 kHz oscillator stops. -/
def effX32Stop (s : Block) : Out :=
  let s := raise (raise s F.AON_STATUS_X32_STOP) F.CLOCK_STATUS_X32_FAIL
  .next (setF s F.CLOCK_X32_STAT_RUN 0)

/-! ## PLL_CONFIG and PLL_RELOCK -/

/-- SPLL-A and SPLL-B are to lock to reference `sel` with the dividers of Table 11-3, or those written (R240): the
domains run on backup timing meanwhile. -/
def selectRef (s : Block) (sel : Nat) (keep : Bool) : Block :=
  let s := enterBackup (setF s F.CLOCK_CTRL_REFSEL sel)
  let s := setClock s { s.clock with refLost := false }
  let r := match sel with
    | 0 => 5
    | 2 => 20
    | _ => 2
  let div := fun (s : Block) l =>
    setCopies (setCopies s (lpF l F.CLOCK_L0_DIV_R) r) (lpF l F.CLOCK_L0_DIV_N) 640
  let s := if keep then s else div (div s 1) 2
  syncClock (setLoop (setLoop s 1 1) 2 1)

/-- PLL_CONFIG's checks and effect. -/
def pllConfigBody (s : Block) (p : List Word) : CmdRes :=
  let sel := pb p 1 1 0
  notInBoot s <|
    if anyArmed s then .fail s Sts.state
    else if slaveNode s && sel != 3 then .fail s Sts.state
    else if sel = 3 && !slaveNode s then .fail s Sts.badParam
    else
      let s := selectRef (abortRelock s) sel (pb p 1 4 4 = 1)
      let s := setClock s { s.clock with lockBy := s.now + 100000001 }
      .wait s [] 0 0

/-- PLL_CONFIG (0x68). -/
def effPllConfig (h : Hdr) (p : List Word) (s : Block) : Out :=
  runCmd s h Op.pllConfig p [] (· == 2) [0x13] pllConfigBody

/-- PLL_RELOCK's checks and effect (R250). -/
def pllRelockBody (s : Block) (p : List Word) : CmdRes :=
  let pol := pb p 1 1 0
  notInBoot s <|
    if pol = 3 then .fail s Sts.badParam
    else if !flag s F.CLOCK_STATE_RELOCK_PEND then .fail s Sts.state
    else if pol != 0 && stepTooLarge s then .fail s Sts.state
    else
      let s := setClock s { s.clock with grp := pb p 1 7 4 }
      .wait (syncClock (startPolicy s pol)) [] 0 0

/-- PLL_RELOCK (0x69). -/
def effPllRelock (h : Hdr) (p : List Word) (s : Block) : Out :=
  runCmd s h Op.pllRelock p [] (· == 2) [0xF3] pllRelockBody

/-! ## The meanings -/

/-- REF_LOST, done to the block; the queue stays. -/
def execRefLost (offTolerance : Bool) (s : State) : Host.Outcome State Fault Refusal :=
  onBlock s (effRefLost offTolerance)

/-- PHASE_JUMP (R246, R254), done to the block; the queue stays. -/
def execPhaseJump (s : State) : Host.Outcome State Fault Refusal :=
  onBlock s effPhaseJump

/-- REF_RETURN (R247), done to the block; the queue stays. -/
def execRefReturn (s : State) : Host.Outcome State Fault Refusal :=
  onBlock s (effRefReturn)

/-- OFFSET_MEASURED (R247), done to the block; the queue stays. -/
def execOffsetMeasured (deltaPs : Int) (s : State) : Host.Outcome State Fault Refusal :=
  onBlock s (effOffsetMeasured deltaPs)

/-- STEER_DONE (R248), done to the block; the queue stays. -/
def execSteerDone (s : State) : Host.Outcome State Fault Refusal :=
  onBlock s (effSteerDone)

/-- SYSTIME_STEP (R249), done to the block; the queue stays. -/
def execSystimeStep (s : State) : Host.Outcome State Fault Refusal :=
  onBlock s (effSystimeStep)

/-- LOSS_OF_LOCK (R243, R251, R254), done to the block; the queue stays. -/
def execLossOfLock (r : LossReport) (s : State) : Host.Outcome State Fault Refusal :=
  onBlock s (effLossOfLock r.loop r.rail)

/-- LOCK_DECLARED (R243, R248, R251), done to the block; the queue stays. -/
def execLockDeclared (r : LockReport) (s : State) : Host.Outcome State Fault Refusal :=
  onBlock s (effLockDeclared r.loop r.worst)

/-- XTAL_FAIL (R252), done to the block; the queue stays. -/
def execXtalFail (s : State) : Host.Outcome State Fault Refusal :=
  onBlock s (effXtalFail)

/-- X32_STOP (R383), done to the block; the queue stays. -/
def execX32Stop (s : State) : Host.Outcome State Fault Refusal :=
  onBlock s (effX32Stop)

/-- PLL_CONFIG (0x68), done to the block; the queue stays. -/
def execPllConfig (h : Hdr) (p : List Word) (s : State) : Host.Outcome State Fault Refusal :=
  onBlock s (effPllConfig h p)

/-- PLL_RELOCK (0x69), done to the block; the queue stays. -/
def execPllRelock (h : Hdr) (p : List Word) (s : State) : Host.Outcome State Fault Refusal :=
  onBlock s (effPllRelock h p)

end Sys2Proof.Machine
end

