-- ==== Sys2Proof/Machine/CalRecords.lean ====
section
/-! DEFINITION. Correction banks, calibration slots and pending results (R334, R337, R340, R341, R344, Tables 02-2
and 15-5), and what the quality registers show (R349). -/

namespace Sys2Proof.Machine

/-! ## Banks and slots -/

/-- The active bank of unit `u`. -/
def calBank (s : Block) (u : Nat) : Nat :=
  if u < 64 then getF s (uF u F.P_STATE_CBANK) else Tbl.get (fun _ => 0) s.cal.abank (u - 64)

/-- Range slots of unit `u` (Tables 02-6, 02-7, 09-1). -/
def calSlots (u : Nat) : Nat := if u < 48 then 6 else if u < 64 then 3 else 4

/-- The factory record of unit `u`; slot A lies 0x1000 further, slot B 0x2000 (Table 17-6). -/
def factoryAddr (u : Nat) : Nat := 0x400000 + u * 0x3000

/-- The NVM slot of a bank of unit `u`. -/
def slotAddr (u bank : Nat) : Nat := factoryAddr u + 0x1000 * (1 + bank)

/-- The record at `a` is valid for unit `u`: a matching CRC and unit number. -/
def slotValid (s : Block) (u a : Nat) : Bool :=
  nvmUsed s a 4096 && nvmWord s (a + 0xFFC) == crc32 (nvmBytes s a 0xFFC) &&
    natBits (nvmWord s (a + 4)) 6 0 == u

/-- The record in use of unit `u`: that of its active bank, or the factory record; none where no record is valid. -/
def activeRec (s : Block) (u : Nat) : Option Nat :=
  match Tbl.get (fun _ => 0) s.cal.src u with
  | 0 => some (slotAddr u (calBank s u))
  | 1 => some (factoryAddr u)
  | _ => none

/-- Word at offset `o` of the record in use; 0 where there is none. -/
def activeWord (s : Block) (u o : Nat) : Nat :=
  match activeRec s u with
  | some a => nvmWord s (a + o)
  | none => 0

/-- 64-bit value at offset `o` of the record in use. -/
def activeWide (s : Block) (u o : Nat) : Nat := activeWord s u o + activeWord s u (o + 4) * 2 ^ 32

/-- The words of factory record `u` at `o`; 0 where it is not valid. -/
def factoryWord (s : Block) (u o : Nat) : Nat :=
  if slotValid s u (factoryAddr u) then nvmWord s (factoryAddr u + o) else 0

/-- Word `i` of the record of a bank and slot. -/
def bankWord (s : Block) (u bank slot i : Nat) : Nat := tableWord s (recordBase u bank slot + 4 * i)

/-- Bits of a word of the table banks changed. -/
def putBank (s : Block) (a mask v : Nat) : Block :=
  let w := Word.ofNat (mergeMask (tableWord s a) v mask)
  { s with tables := Tbl.set (fun _ => (0 : Word)) s.tables a w }

/-- The trim codes of a slot of a bank. -/
def trimOf (s : Block) (u bank slot : Nat) : Nat := Tbl.get (fun _ => 0) s.cal.trims (u * 32 + bank * 8 + slot)

/-- The trim codes set. -/
def putTrim (s : Block) (u bank slot v : Nat) : Block :=
  { s with cal := { s.cal with trims := Tbl.set (fun _ => 0) s.cal.trims (u * 32 + bank * 8 + slot) v } }

/-- The words of a bank by offset, and its trims. -/
def bankImage (s : Block) (u b : Nat) : List (Nat × Word) × List Nat :=
  let src := recordBase u b 0
  ((s.tables.filter (fun x => decide (src ≤ x.1) && decide (x.1 < src + 0x800))).map (fun x => (x.1 - src, x.2)),
    (List.range 8).map (trimOf s u b))

/-- A bank set to an image. -/
def putImage (s : Block) (u b : Nat) (x : List (Nat × Word) × List Nat) : Block :=
  let dst := recordBase u b 0
  let rest := s.tables.filter (fun x => decide (x.1 < dst) || decide (dst + 0x800 ≤ x.1))
  let tbl := x.1.foldl (fun m w => Tbl.set (fun _ => (0 : Word)) m (w.1 + dst) w.2) rest
  forEach (List.range 8) { s with tables := tbl } (fun s k => putTrim s u b k (x.2.getD k 0))

/-- Every record and trim of bank `a` copied to bank `b` (R334). -/
def copyBank (s : Block) (u a b : Nat) : Block := putImage s u b (bankImage s u a)

/-- The bits of a correction record's word that the record has; the reserved bytes read zero (Table 02-2). -/
def bankMask (o : Nat) : Nat :=
  if o < 8 then 0xFFFFFF else if o = 0xC || o = 0x50 then 0xFFFF else if o < 0x50 then 0xFFFFFFFF else 0

/-- A calibration record of the NVM loaded into a bank: correction records, trims (R341). -/
def loadBank (s : Block) (u bank a : Nat) : Block :=
  forEach (List.range (calSlots u)) s (fun s k =>
    let s := forEach (List.range 21) s (fun s i =>
      putBank s (recordBase u bank k + 4 * i) (bankMask (4 * i)) (nvmWord s (a + 0x100 + k * 0x100 + 4 * i)))
    putTrim s u bank k (natBits (nvmWord s (a + 0xB0 + 4 * k)) 15 0))

/-- The skew tap and XDELAY of the record in use act (R47, R62). -/
def actPerUnit (s : Block) (u : Nat) : Block :=
  if u < 64 then
    let s := setF s (uF u F.P_SKEW_TAP) (natBits (activeWord s u 0x28) 5 0)
    if u < 48 then
      putM s (brgBase u + R.BRG_XDELAY) 0xFFFFFFFF
        (if (activeRec s u).isNone then 1000000 else activeWord s u 0x2C)
    else s
  else s

/-- Unit `u`'s calibration at start-up (R341): every valid slot into its bank, the newest active; else the factory
record; else an all-zero correction. -/
def loadCal (s : Block) (u : Nat) : Block :=
  let put := fun (s : Block) (src bank : Nat) =>
    let c := { s.cal with src := Tbl.set (fun _ => 0) s.cal.src u src }
    let c := if u < 64 then c else { c with abank := Tbl.set (fun _ => 0) s.cal.abank (u - 64) bank }
    let s := { s with cal := c }
    if u < 64 then setF s (uF u F.P_STATE_CBANK) bank else s
  let a := slotAddr u 0
  let b := slotAddr u 1
  let f := factoryAddr u
  let both := fun (s : Block) (x : Nat) => loadBank (loadBank s u 0 x) u 1 x
  actPerUnit (match slotValid s u a, slotValid s u b with
    | true, true => put (loadBank (loadBank s u 0 a) u 1 b) 0 (if newer (nvmWord s a) (nvmWord s b) then 0 else 1)
    | true, false => put (both s a) 0 0
    | false, true => put (both s b) 0 1
    | false, false =>
      if slotValid s u f then raise (put (both s f) 1 0) F.CAL_STATUS_FACTORY
      else raise (put s 2 0) F.CAL_STATUS_UNCAL) u

/-! ## Pending results (R344) -/

/-- The pending result of unit `u`. -/
def calPend (s : Block) (u : Nat) : Option CalPend := Tbl.get (fun _ => (none : Option CalPend)) s.cal.pend u

/-- The mask bit that shows unit `u` pending. -/
def pendBit (u : Nat) : Fld :=
  if u < 32 then ⟨R.CAL_PEND_PD_LO, u, u⟩
  else if u < 64 then ⟨R.CAL_PEND_PD_HI, u - 32, u - 32⟩
  else if u < 96 then ⟨R.CAL_PEND_A, u - 64, u - 64⟩
  else ⟨R.CAL_PEND_LC, u - 96, u - 96⟩

/-- Unit `u`'s pending result set or cleared. -/
def setPend (s : Block) (u : Nat) (x : Option CalPend) : Block :=
  let m := Tbl.set (fun _ => (none : Option CalPend)) s.cal.pend u x
  setB { s with cal := { s.cal with pend := m } } (pendBit u) x.isSome

/-- Every pending unit. -/
def pendUnits (s : Block) : List Nat := (List.range 104).filter (fun u => (calPend s u).isSome)

/-- The pending bank of unit `u` that the run in progress copies over, kept in case the unit fails (R338). -/
def saveBank (s : Block) (u : Nat) : List SavedBank :=
  let b := 1 - calBank s u
  let x := bankImage s u b
  if (calPend s u).isSome then [⟨u, b, x.1, x.2⟩] else []

/-- The pending bank of unit `u` put back as it was before the run in progress. -/
def restoreBank (s : Block) (u : Nat) : Block :=
  match s.cal.run.bind (fun r => r.saved.find? (fun x => x.unit == u)) with
  | some x => putImage s u x.bank (x.words, x.trims)
  | none => s

/-! ## CAL_RUN's items (Table 15-1) -/

/-- The range slots that a run names for unit `u`. -/
def runSlots (p : List Word) (u : Nat) : List Nat :=
  if u < 48 then bitList (pb p 4 13 8) 6
  else if u < 64 then bitList (pb p 4 18 16) 3
  else bitList (pb p 4 23 20) 4

/-- Item `k` of word 4: 0 OFFGAIN, 1 INL, 2 TIMING, 3 XDELAY, 4 EYE. -/
def runItem (p : List Word) (k : Nat) : Bool := pb p 4 (24 + k) (24 + k) == 1

/-- The named items of a measured slot into the inactive bank: G and O with T_CAL, TCG and TCO of the factory record,
and the trims; the breakpoints (R334, R336). -/
def putCalSlot (p : List Word) (u bank : Nat) (s : Block) (r : SlotResult) : Block :=
  let base := recordBase u bank r.slot
  let w := fun i => (r.record.getD i 0).toNat
  let s := if runItem p 0 then
      let s := putBank (putBank s base 0xFFFFFF (w 0)) (base + 4) 0xFFFFFF (w 1)
      let s := putBank s (base + 8) 0xFFFFFFFF (factoryWord s u (0x108 + r.slot * 0x100))
      putTrim (putBank s (base + 12) 0xFFFF (w 3)) u bank r.slot (r.trim % 65536)
    else s
  if runItem p 1 then
    forEach (List.range 17) s (fun s i =>
      putBank s (base + 0x10 + 4 * i) (if i = 16 then 0xFFFF else 0xFFFFFFFF) (w (4 + i)))
  else s

/-- The committed record of lane cluster `c`; zeros where none is valid. -/
def laneCommitted (s : Block) (c : Nat) : List Byte :=
  ((laneRec s c).filter (laneRecOk c)).getD (List.replicate 36 0)

/-- The committed taps of lane cluster `c`, by lane. -/
def laneTaps (s : Block) (c : Nat) : List Nat :=
  (List.range 8).map (fun j => natBits (((laneCommitted s c).getD (8 + j) 0).toNat) 5 0)

/-- The committed eye widths of lane cluster `c`, by lane. -/
def laneEyes (s : Block) (c : Nat) : List Nat :=
  (List.range 8).map (fun j => bytesNat (((laneCommitted s c).drop (16 + 2 * j)).take 2))

/-- The eye widths of cluster `c` from the longest error-free runs `l`: whole phases of 25 ps, a bit at most; a lane that is
not in PUSH mode is not measured and reports 0 (R176). -/
def measuredEyes (s : Block) (c : Nat) (l : List Nat) : List Nat :=
  (List.range 8).map (fun j =>
    if bits (laneCfg s c) (4 * j + 1) (4 * j) = 0 then min 5000 (l.getD j 0 / 25 * 25) else 0)

/-- The slots of a result that the run measures of unit `u`. -/
def namedSlots (p : List Word) (u : Nat) (x : UnitResult) : List SlotResult :=
  if runItem p 0 || runItem p 1 then x.slots.filter (fun k => (runSlots p u).contains k.slot) else []

/-- The measured slots of a result into unit `u`'s inactive bank, over the copy of its active one (R334). -/
def putMeasured (p : List Word) (s : Block) (u : Nat) (x : UnitResult) : Block :=
  if u < 96 then forEach (namedSlots p u x) s (putCalSlot p u (1 - calBank s u)) else s

/-- A unit that passed becomes pending; items not named keep their committed values (R334), those of a lane cluster in its
record. -/
def makePending (p : List Word) (s : Block) (x : Nat × UnitResult) : Block :=
  let u := x.1
  let r := x.2
  let certs : CalPend := { refv := pw64 p 5, resv := pw64 p 7, refId := pw p 9, resId := pw p 10 }
  let timings := if runItem p 2 then r.timings else []
  if u < 96 then
    setPend s u (some { certs with
      slots := namedSlots p u r
      tap := if runItem p 2 then r.tap % 64 else natBits (activeWord s u 0x28) 5 0
      timings := timings
      xdelay := if 48 ≤ u then 0 else if runItem p 3 then r.xdelay
        else (getW s (brgBase u + R.BRG_XDELAY)).toNat })
  else
    setPend s u (some { certs with
      timings := timings
      eyes := if runItem p 4 then measuredEyes s (u - 96) r.eyes else []
      taps := if runItem p 2 then r.taps else [] })

/-! ## The bytes of a calibration slot (Table 15-5) -/

/-- Quality figures of a measured slot. -/
def qualityBytes (l : List SlotResult) (k : Nat) : List Byte :=
  match l.find? (fun r => r.slot == k) with
  | some r => natBytes (unsigned 32 r.residual) 4 ++ natBytes (unsigned 32 r.gainMove) 4 ++
      natBytes (unsigned 32 r.offsMove) 4 ++ natBytes (satU 16 r.noise) 2 ++ natBytes (satU 16 r.inlMax) 2
  | none => natBytes 0 16

/-- The slot content that commits bank `bank` of unit `u`: SEQ, origin (1 CAL_RUN, 2 host bank) and the result. -/
def slotBytes0 (s : Block) (u bank sq origin : Nat) (x : CalPend) : List Byte :=
  let l := natBytes sq 4 ++ natBytes (u + origin * 2 ^ 8) 4 ++ natBytes (rtcSec s) 8 ++
    natBytes x.refv 8 ++ natBytes x.resv 8 ++ natBytes x.refId 4 ++ natBytes x.resId 4 ++
    natBytes x.tap 4 ++ natBytes x.xdelay 4
  let q := (List.range 8).flatMap (fun k => if k < 6 then qualityBytes x.slots k else natBytes 0 16)
  let t := (List.range 8).flatMap (fun k => natBytes (trimOf s u bank k) 4)
  let r := (List.range 8).flatMap (fun k => (List.range 64).flatMap (fun i => natBytes (bankWord s u bank k i) 4))
  let l := l ++ q ++ t ++ natBytes 0 48 ++ r ++ natBytes 0 0x6FC
  l ++ natBytes (crc32 l) 4

/-! ## The quality registers (R349) -/

/-- The eight bytes of figures of slot `k` of the record in use, from byte `o`. -/
def activeQuality (s : Block) (u k o : Nat) : Nat := activeWord s u (0x30 + 0x10 * k + o)

/-- What the register at offset `o` of CAL shows for the unit and slot in SEL; none for the other registers. -/
def calView (s : Block) (o : Nat) : Option Nat :=
  let u := getF s F.CAL_SEL_UNIT
  let k := getF s F.CAL_SEL_SLOT
  let j := getF s F.CAL_SEL_LANE
  let old := flag s F.CAL_SEL_VIEW
  let ok := decide (u < 96) && decide (k < calSlots u)
  let x : CalPend := (calPend s u).getD {}
  let r := x.slots.find? (fun r => r.slot == k)
  let lanePart := fun (l : List Nat) (committed : Block → Nat → List Nat) =>
    if l.isEmpty && (calPend s u).isSome then committed s (u - 96) else l
  let fig := fun (o : Nat) (f : SlotResult → Nat) =>
    if !ok then 0 else if old then activeQuality s u k o
    else match r with
      | some r => f r
      | none => 0
  match o with
  | 0x3C => some (fig 0 (fun r => unsigned 32 r.residual))
  | 0x40 => some (fig 4 (fun r => unsigned 32 r.gainMove))
  | 0x44 => some (fig 8 (fun r => unsigned 32 r.offsMove))
  | 0x48 => some (if old then natBits (fig 12 (fun _ => 0)) 31 16 else fig 12 (fun r => satU 16 r.inlMax))
  | 0x4C => some (
      if 104 ≤ u then 0
      else if old then
        if u < 96 then natBits (activeWord s u 0x28) 5 0 else (laneTaps s (u - 96)).getD j 0
      else unsigned 16 (x.timings.getD (if u < 96 then 0 else j) 0) * 2 ^ 16 +
        (if u < 96 then x.tap else (lanePart x.taps laneTaps).getD j 0))
  | 0x50 => some (if 48 ≤ u then 0 else if old then activeWord s u 0x2C else x.xdelay)
  | 0x54 => some (
      if u < 96 || 104 ≤ u then 0 else if old then (laneEyes s (u - 96)).getD j 0
      else (lanePart x.eyes laneEyes).getD j 0)
  | 0x5C => some (
      if 96 ≤ u then 0
      else
        let src := Tbl.get (fun _ => 0) s.cal.src u
        (if src = 1 then 2 ^ 31 else 0) + (if src = 2 then 2 ^ 30 else 0) + calBank s u * 2 ^ 29 +
          natBits (activeWord s u 0) 23 0)
  | 0x60 => some (if 96 ≤ u then 0 else activeWord s u 8)
  | 0x64 => some (
      if !ok then 0
      else if old then natBits (bankWord s u (calBank s u) k 3) 15 0
      else if (calPend s u).isSome then natBits (bankWord (restoreBank s u) u (1 - calBank s u) k 3) 15 0
      else 0)
  | _ => none

end Sys2Proof.Machine
end

