-- ==== Sys2Proof/Machine/Calibration.lean ====
section
/-! DEFINITION. CAL_RUN, CAL_COMMIT, CAL_DISCARD and AUDIT_READ (R332 to R348). -/

namespace Sys2Proof.Machine

/-! ## CAL_RUN: checks (R333) -/

/-- Every unit a run names, ascending. -/
def runUnits (p : List Word) : List Nat :=
  bitList (pw64 p 1) 64 ++ (bitList (pw p 3) 32).map (· + 64) ++ (bitList (pb p 4 7 0) 8).map (· + 96)

/-- The units of region `i`, or the lane clusters (4), in the order of R334. -/
def runList (p : List Word) (i : Nat) : List Nat :=
  if i = 4 then (runUnits p).filter (fun u => decide (96 ≤ u))
  else (runUnits p).filter (fun u => decide (u < 96) && regionOf u == i)

/-- The regions with a named analogue unit. -/
def runRegions (p : List Word) : List Nat := (List.range 4).filter (fun i => !(runList p i).isEmpty)

/-- Step 2 of R333: a value outside Table 15-1, no unit, no item, INL alone, or RESV missing. -/
def runParamBad (p : List Word) : Bool :=
  let refv := pw64 p 5
  let resv := pw64 p 7
  let cur := pb p 4 13 13 == 1 || pb p 4 18 17 != 0
  (runUnits p).isEmpty || pb p 4 28 24 == 0 || (runItem p 1 && !runItem p 0) ||
    decide (refv < 1000000000) || decide (10000000000 < refv) || (cur && resv == 0) ||
    (!cur && resv != 0) || (resv != 0 && (decide (resv < 100000000) || decide (400000000 < resv))) ||
    (resv == 0 && pw p 10 != 0)

/-- Step 3 of R333: unit `u` may not be measured now. -/
def runUnitBad (s : Block) (u : Nat) : Bool :=
  if u < 64 then
    !(ostate s u == 0 || ostate s u == 1) || groupArmed s u
  else if u < 96 then
    (List.range 4).any (fun t => capArmed s t &&
      ((refUnits s t).contains (u - 64) || ((cap s t).cfg.units.testBit (u - 64))))
  else (groupOf s u).isSome

/-- Two standards' figures as numbers of a job, and back. -/
def standardNats (x : Standards) : List Nat :=
  [x.calrefUv, x.resUohm, unsigned 64 x.refDev, unsigned 64 x.resDev]

/-- Steps 5 and 6 of R333: status and DETAIL of a failure of the standards. -/
def standardsBad (p : List Word) (l : List Nat) : Option (Nat × Nat) :=
  let resv := pw64 p 7
  let res := l.getD 1 0
  let off := fun (v : Nat) => let x := signed 64 v; decide (x < -50000) || decide (50000 < x)
  if l.getD 0 0 < 500000 then some (Sts.calRefMissing, 1)
  else if resv != 0 && (decide (2 * res < resv) || decide (3 * resv < 2 * res)) then
    some (Sts.calRefMissing, 2)
  else if off (l.getD 2 0) then some (Sts.calImplausible, 0x01)
  else if resv != 0 && off (l.getD 3 0) then some (Sts.calImplausible, 0x03)
  else none

/-! ## CAL_RUN: the run (R334, R335) -/

/-- The run in progress changed. -/
def setRun (s : Block) (r : Option CalRun) : Block := { s with cal := { s.cal with run := r } }

/-- The newest temperature of unit `u`'s cluster. -/
def clusterTemp (s : Block) (u : Nat) : Int :=
  match (unit s u).tempNew with
  | some v => v.1
  | none => (unit s u).temp

/-- Unit `u` is connected next: its active bank is copied into the inactive one (R334); one in REST leaves its pins for
PARK; the lanes of a cluster whose eyes or taps are measured begin their pattern (R335, R176). -/
def calConnect (s : Block) (r : CalRun) (u : Nat) : Block :=
  let o := if u < 64 then ostate s u else 0
  let t := clusterTemp s u
  let saved := if u < 96 then saveBank s u else []
  let s := if u < 96 then copyBank s u (calBank s u) (1 - calBank s u) else s
  let s := setRun s (some { r with
    busy := r.busy ++ [(u, o)], temps := r.temps ++ [(u, t, t)], saved := r.saved ++ saved })
  let s := if decide (96 ≤ u) && (runItem r.p 2 || runItem r.p 4) then
      setLane s (u - 96) { lane s (u - 96) with prbsAt := s.sysTime + 1, prbsTo := 0 } else s
  if u < 64 && o = 1 then schedUnit s u (s.sysTime + 1) .park else s

/-- Which of the five lists unit `u` belongs to. -/
def listOf (u : Nat) : Nat := if u < 96 then regionOf u else 4

/-- List `i` takes its next unit where none of its units is being measured; after its last unit its grant is
released. -/
def calNext (s : Block) (i : Nat) : Block :=
  match s.cal.run with
  | none => s
  | some r =>
    if r.busy.any (fun b => listOf b.1 == i) then s
    else
      match r.left.getD i [] with
      | u :: t => calConnect s { r with left := r.left.set i t } u
      | [] =>
        if r.grants.contains i then
          pacRelease (setRun s (some { r with grants := r.grants.erase i })) i 450
        else s

/-- A unit leaves the reference path: one that came from REST returns there from zero as at start-up, in SAFE too (R335,
R337, R348). -/
def calLeave (s : Block) (b : Nat × Nat) : Block :=
  let u := b.1
  if decide (u < 64) && b.2 == 1 then schedUnit s u (s.sysTime + 1) .newRest
  else if 96 ≤ u then
    let x := lane s (u - 96)
    setLane s (u - 96) { x with prbsTo := if x.prbsTo = 0 then s.sysTime else x.prbsTo }
  else s

/-- How a run ends that nothing cut short (R339): OK where every named unit passed. Where a region SAFE or a FAULT took a
unit out of it, none failing, it is PARTIAL, or ABORTED where no unit passed (DESIGN CHOICE, log entry 37). -/
def runStatus (r : CalRun) : Nat :=
  if !r.fails.isEmpty then Sts.calImplausible
  else if r.dropped.isEmpty then Sts.ok
  else if r.good.isEmpty then Sts.aborted
  else Sts.partially

/-- The status of a run that is cut short: PARTIAL where some unit had finished (R337). -/
def cutStatus (r : CalRun) : Nat := if r.good.isEmpty && r.fails.isEmpty then Sts.aborted else Sts.partially

/-- The run ends: its finished units become pending, the banks of the others are as their earlier results left them, those
being measured leave the path, its grants go, and its command completes with `status` (none: as R339 gives). -/
def calEnd (s : Block) (j : Job) (status : Option Nat) : Block :=
  match s.cal.run with
  | none => s
  | some r =>
    let s := forEach ((r.saved.map (fun x => x.unit)).filter (fun u => !r.good.any (fun g => g.1 == u))) s restoreBank
    let s := forEach r.good s (makePending r.p)
    let s := forEach r.busy (setRun s none) calLeave
    let s := forEach r.grants s (fun s i => pacRelease s i 450)
    let s := pacVisit (setQueue s (s.sys.queue.filter (fun q => q.id != j.id)))
    let s := setF s F.CAL_STATE_PHASE (if s.cmd.jobs.any (fun k => k.op == Op.calCommit) then 3 else 0)
    let j := { j with steps := r.good.length }
    match status, r.fails with
    | some st, _ => endJob s j st j.detail
    | none, [] => endJob s j (runStatus r) 0
    | none, f :: fs =>
      let w := fs.foldl (fun a b => if b.1 < a.1 then b else a) f
      let s := setF (setF s F.CAL_REJ_INFO_REASON w.2.1) F.CAL_REJ_INFO_SLOT w.2.2
      let s := setF (setF s F.CAL_REJ_INFO_UNIT w.1) F.CAL_REJ_INFO_VALID 1
      endJob s { j with result := w.1 + w.2.2 * 2 ^ 8 } (runStatus r) w.2.1

/-- The run is over once nothing is left or being measured. -/
def calSettle (s : Block) (j : Job) : Block :=
  let s := forEach (List.range 5) s calNext
  match s.cal.run with
  | none => s
  | some r => if r.busy.isEmpty && r.left.all (fun l => l.isEmpty) then calEnd s j none else s

/-- The standards are present and agree: the run is accepted and begins. -/
def calBegin (s : Block) (j : Job) (l : List Nat) : Block :=
  let p := j.p
  let s := incF s F.CAL_RUNS_COUNT
  let s := set64 s F.CAL_REF_VAL_LO_NV F.CAL_REF_VAL_HI_NV (pw64 p 5)
  let s := set64 s F.CAL_RES_VAL_LO_UOHM F.CAL_RES_VAL_HI_UOHM (pw64 p 7)
  let s := setF (setF s F.CAL_REF_ID_ID (pw p 9)) F.CAL_RES_ID_ID (pw p 10)
  let s := setF (setF s F.CAL_REF_DEV_PPM (l.getD 2 0)) F.CAL_REF_DRIFT_PPM 0
  let s := setF (setF s F.CAL_STATE_DONE 0) F.CAL_STATE_TOTAL (runUnits p).length
  let s := setF s F.CAL_STATE_PHASE 2
  let r : CalRun := { p := p, left := (List.range 5).map (runList p), grants := runRegions p }
  let k := { j with todo := [1], steps := 0 }
  calSettle (setRun (putJob s j k) (some r)) k

/-- Every grant is held: the standards are looked at. -/
def calStandards (s : Block) (j : Job) (l : List Nat) : Block :=
  match standardsBad j.p l with
  | none => calBegin s j l
  | some f =>
    let s := forEach (runRegions j.p) (setRun s none) (fun s i => pacRelease s i 450)
    let s := if f.1 = Sts.calRefMissing then raise s F.CAL_STATUS_REF_MISSING else s
    endJob (setF s F.CAL_STATE_PHASE 0) j f.1 f.2

/-- The request of a run: 0.45 W on the ledger of every region with a named analogue unit. -/
def runRequest (s : Block) (h : Hdr) (p : List Word) : PacReq :=
  ⟨1, (runUnits p).headD 112, (runRegions p).map (fun i => (i, 450)), .cmd Op.calRun, h.ring, s.cmd.cur, s.now + toCmd s⟩

/-- CAL_RUN's checks in the order of R333 up to the admission; the standards are looked at in the next step, and the
run is in progress from here on. Its `todo`: 0 while power is awaited, 2 before the standards, then the standards'
figures; 1 during the run. -/
def calRunBody (h : Hdr) (x : Standards) (s : Block) (p : List Word) : CmdRes :=
  if modeOf s != 3 then .fail s Sts.state
  else if runParamBad p then .fail s Sts.badParam
  else if s.cal.run.isSome || s.cmd.jobs.any (fun j => j.op == Op.calRun || j.op == Op.calCommit) then
    .fail s Sts.state
  else
    match (runUnits p).find? (runUnitBad s) with
    | some u => .done s Sts.state 0 1 u
    | none =>
      let a := pacAsk s (runRequest s h p) false
      let go := fun (k : Nat) =>
        let t := setRun a.1 (some { p := p })
        CmdRes.more (setF t F.CAL_STATE_PHASE 1) 0 0 (k :: standardNats x)
      match a.2 with
      | .deny => .fail a.1 Sts.powerDenied
      | .queue => go 0
      | .grant => go 2

/-- CAL_RUN (0x50). -/
def effCalRun (h : Hdr) (p : List Word) (st : Standards) (s : Block) : Out :=
  runCmd s h Op.calRun p [] (· == 11)
    [0xFFFFFFFF, 0xFFFFFFFF, 0xFFFFFFFF, 0x1FF73FFF, 0xFFFFFFFF, 0xFFFFFFFF, 0xFFFFFFFF, 0xFFFFFFFF,
     0xFFFFFFFF, 0xFFFFFFFF] (calRunBody h st)

/-- A region in SAFE drops out of the run: its units leave the path, its grant goes; a unit that its own FAULT kept
from the path drops out alone. -/
def calDrop (s : Block) : Block :=
  match s.cal.run with
  | none => s
  | some r =>
    let safe := fun i => i != 4 && (getF s F.PATROL_RGN_STATE_SAFE).testBit i
    let off := fun (b : Nat × Nat) => safe (listOf b.1) || (decide (b.1 < 64) &&
      !(ostate s b.1 == 0 || (ostate s b.1 == 5 && (unit s b.1).goal == .park) ||
        (unit s b.1).trans.any (fun t => decide (t.2 = .park))))
    let gone := r.busy.filter off
    let r := { r with
      dropped := r.dropped ++ gone.map (fun b => b.1) ++ ((r.left.zipIdx).flatMap (fun x => if safe x.2 then x.1 else []))
      busy := r.busy.filter (fun b => !off b)
      left := (r.left.zipIdx).map (fun x => if safe x.2 then [] else x.1) }
    forEach gone (setRun s (some r)) calLeave

/-- The run holds its regions' power and has not yet looked at the standards (R333). -/
def runHolds (s : Block) (j : Job) : Bool := j.todo.headD 0 == 2 || (j.todo.headD 0 == 0 && (queuedFor s j).isEmpty)

/-- A run that is cut before the standards gives its grants back. -/
def dropRunGrants (s : Block) (j : Job) : Block :=
  if runHolds s j then forEach (runRegions j.p) s (fun s i => pacRelease s i 450) else s

/-- A later step of CAL_RUN: its grant, the standards, and what ends it early (R337). -/
def calRunContinue (s : Block) (j : Job) : Block :=
  let hd := j.todo.headD 0
  if 0x1000 ≤ hd then endJob (setF (setRun s none) F.CAL_STATE_PHASE 0) j (hd - 0x1000) j.detail
  else if modeOf s = 4 then
    match s.cal.run with
    | some r => calEnd (dropRunGrants s j) j (some (cutStatus r))
    | none => s
  else if hd = 0 then if runHolds s j then putJob s j { j with todo := 2 :: j.todo.drop 1 } else s
  else if hd = 2 then calStandards s j (j.todo.drop 1)
  else calSettle (calDrop s) j

/-- The command of the run in progress. -/
def calJob (s : Block) : Option Job := s.cmd.jobs.find? (fun j => j.op == Op.calRun)

/-! ## Quality figures and plausibility (R338, Table 15-4) -/

/-- Value `a`, in units of 2^-30, differs from the factory record's `f` by more than `ppm`. -/
def movedBy (a f : Int) (ppm : Nat) : Bool := decide (ppm * 2 ^ 30 < (a - f).natAbs * 1000000)

/-- Word `i` of the factory record of slot `k` of unit `u`. -/
def factorySlot (s : Block) (u k i : Nat) : Nat := factoryWord s u (0x100 + k * 0x100 + 4 * i)

/-- Breakpoint `i` of the correction record whose words are `w`. -/
def breakpoint (w : Nat → Nat) (i : Nat) : Int :=
  signed 16 (if i % 2 = 0 then w (4 + i / 2) else w (4 + i / 2) >>> 16)

/-- Row 0x10: G of the record with words `w` lies more than 200 ppm of reading from the factory record. -/
def gainMoved (s : Block) (u k : Nat) (w : Nat → Nat) : Bool :=
  movedBy (signed 24 (w 0)) (signed 24 (factorySlot s u k 0)) 200

/-- Row 0x11: O lies more than 20 (P), 100 (D) or 50 ppm of range (A) from the factory record. -/
def offsMoved (s : Block) (u k : Nat) (w : Nat → Nat) : Bool :=
  movedBy (signed 24 (w 1)) (signed 24 (factorySlot s u k 1)) (if u < 48 then 20 else if u < 64 then 100 else 50)

/-- Row 0x12: a breakpoint lies more than 5 (P), 20 (D) or 10 ppm of range (A) from the factory record. -/
def inlMoved (s : Block) (u k : Nat) (w : Nat → Nat) : Bool :=
  (List.range 33).any (fun i => movedBy (breakpoint w i) (breakpoint (factorySlot s u k) i)
    (if u < 48 then 5 else if u < 64 then 20 else 10))

/-- The INL limit of slot `k` of unit `u` in 0.01 ppm of range (Tables 02-6, 03-3, 09-1; 5 ppm for D). -/
def residualLimit (u k : Nat) : Nat :=
  if u < 48 then (if k = 5 then 50 else 30) else if u < 64 then 500 else 200

/-- The 0.1 Hz to 10 Hz noise of slot `k` of unit `u` in 0.01 ppm of range (Tables 02-6, 09-1): the ratiometric range has
that of ±25 mV. None for the current range of P units, where the worked case passes what the table would reject, and for D
units, for which Table 02-7 gives no such figure: there the path's own verdict stands (DESIGN CHOICE, log entry 37). -/
def noiseFigure (u k : Nat) : Option Nat :=
  if u < 48 then [some 120, some 42, some 15, some 12, some 120].getD k none
  else if u < 64 then none
  else [some 200, some 60, some 25, some 25].getD k none

/-- Row 0x14 where the tables give a figure: noise beyond 1.5 times it. -/
def noisy (u : Nat) (r : SlotResult) : Bool :=
  match noiseFigure u r.slot with
  | some f => decide (3 * f < 2 * r.noise)
  | none => false

/-- `a - f`, in units of 2^-30, to the nearest part of `scale`. -/
def moveIn (scale : Nat) (a f : Int) : Int := ((a - f) * (2 * scale : Nat) + 2 ^ 30) / 2 ^ 31

/-- The words of a measured slot's record: those the run measures, those it does not name as they are in use. -/
def runWords (p : List Word) (s : Block) (u : Nat) (r : SlotResult) (i : Nat) : Nat :=
  if (i < 4 && runItem p 0) || (4 ≤ i && runItem p 1) then (r.record.getD i 0).toNat
  else bankWord s u (calBank s u) r.slot i

/-- A measured slot with the figures that follow from its record: the moves from the factory record, and T_CAL, the
cluster's temperature at the gain measurement, which lies within 1 K of the present one in a unit that passes (R336,
R338, row 0x19). -/
def figured (s : Block) (u : Nat) (r : SlotResult) : SlotResult :=
  let w := fun i => (r.record.getD i 0).toNat
  let now := (unit s u).temp
  { r with
    gainMove := moveIn 10000000 (signed 24 (w 0)) (signed 24 (factorySlot s u r.slot 0))
    offsMove := moveIn 100000000 (signed 24 (w 1)) (signed 24 (factorySlot s u r.slot 1))
    record := r.record.set 3 (Word.ofNat (unsigned 16 (clampI (now - 128) (now + 128) (signed 16 (w 3))))) }

/-- The slots of a result that the run named and measured. -/
def runMeasured (p : List Word) (u : Nat) (x : UnitResult) : List SlotResult :=
  if runItem p 0 then x.slots.filter (fun r => (runSlots p u).contains r.slot) else []

/-- Row 0x19: the cluster temperature moved more than 1 K while unit `u` was on the path. -/
def tempMoved (s : Block) (u : Nat) : Bool :=
  match s.cal.run.bind (fun r => r.temps.find? (fun x => x.1 == u)) with
  | some x => decide (x.2.1 + 128 < x.2.2)
  | none => false

/-- Row 0x1A: the unit's output reached compliance or its current limit while it was on the path. -/
def reachedLimit (s : Block) (u : Nat) : Bool :=
  match s.cal.run with
  | some r => r.comp.contains u
  | none => false

/-- The checks of Table 15-4 that a unit's figures fail, with the slot, in the order of the codes. Row 0x14 where no table
gives the figure, 0x15 and 0x16 are what the path itself found, in `reason` and `rslot`; so may 0x19 and 0x1A be, beside
what the device sees of the temperature and of compliance. -/
def calChecks (s : Block) (p : List Word) (u : Nat) (x : UnitResult) : List (Nat × Nat) :=
  let m := runMeasured p u x
  let all := fun (code : Nat) (bad : SlotResult → Bool) => (m.filter bad).map (fun r => (code, r.slot))
  let one := fun (code : Nat) (bad : Bool) => if bad then [(code, 0xF)] else []
  let own := fun (code : Nat) => if x.reason = code then [(code, x.rslot % 16)] else []
  let lane := decide (96 ≤ u)
  all 0x10 (fun r => gainMoved s u r.slot (runWords p s u r)) ++
    all 0x11 (fun r => offsMoved s u r.slot (runWords p s u r)) ++
    all 0x12 (fun r => inlMoved s u r.slot (runWords p s u r)) ++
    all 0x13 (fun r => decide (residualLimit u r.slot < r.residual.natAbs)) ++
    all 0x14 (noisy u) ++ own 0x14 ++ own 0x15 ++
    one 0x16 (runItem p 2 && (if lane then x.taps.any (fun t => decide (63 < t)) else decide (63 < x.tap))) ++ own 0x16 ++
    one 0x17 (runItem p 3 && decide (u < 48) && (decide (x.xdelay < 950000) || decide (1050000 < x.xdelay))) ++
    one 0x18 (lane && runItem p 4 && (List.range 8).any (fun j =>
      bits (laneCfg s (u - 96)) (4 * j + 1) (4 * j) == 0 && decide ((measuredEyes s (u - 96) x.eyes).getD j 0 < 2500))) ++
    one 0x19 (tempMoved s u) ++ own 0x19 ++ one 0x1A (reachedLimit s u) ++ own 0x1A

/-- The verdict on a unit: the first failed check, with its slot; none: it passes. -/
def calVerdict (s : Block) (p : List Word) (u : Nat) (x : UnitResult) : Option (Nat × Nat) := (calChecks s p u x).head?

/-- A unit's result as it becomes pending. -/
def calFigures (s : Block) (p : List Word) (u : Nat) (x : UnitResult) : UnitResult :=
  { x with slots := (runMeasured p u x).map (figured s u) }

/-- A temperature `v` seen at the units of `l` that are on the path. -/
def runTemp (s : Block) (l : List Nat) (v : Int) : Block :=
  match s.cal.run with
  | some r => setRun s (some { r with temps := r.temps.map (fun x =>
      if l.contains x.1 && r.busy.any (fun b => b.1 == x.1) then (x.1, min x.2.1 v, max x.2.2 v) else x) })
  | none => s

/-- Unit `u`, on the path, reaches compliance. -/
def runLimit (s : Block) (u : Nat) : Block :=
  match s.cal.run with
  | some r => if r.busy.any (fun b => b.1 == u) then setRun s (some { r with comp := r.comp ++ [u] }) else s
  | none => s

/-- A unit rejected for a reason and slot (R338). -/
def calReject (s : Block) (u reason slot : Nat) : Block :=
  let s := incF (raise s F.CAL_STATUS_REJECT) F.CAL_REJECTS_COUNT
  let s := setF (setF s F.CAL_REJ_INFO_REASON reason) F.CAL_REJ_INFO_SLOT slot
  setF (setF s F.CAL_REJ_INFO_UNIT u) F.CAL_REJ_INFO_VALID 1

/-- The standard re-measured after a region's last unit: the largest drift is shown, and one of more than 1 ppm rejects
every unit of the region (Table 15-4). -/
def calDrift (s : Block) (r : CalRun) (i : Nat) (d : Int) : Block :=
  let old := signed 32 (getF s F.CAL_REF_DRIFT_PPM)
  let s := if old.natAbs < d.natAbs then setF s F.CAL_REF_DRIFT_PPM (unsigned 32 d) else s
  if d.natAbs ≤ 100 then setRun s (some r)
  else
    let l := (runList r.p i).filter (fun u => !r.fails.any (fun f => f.1 == u))
    let s := forEach l (setRun s (some r)) (fun s u => calReject (restoreBank s u) u 0x02 0xF)
    setRun s (some { r with
      good := r.good.filter (fun g => !l.contains g.1), fails := r.fails ++ l.map (fun u => (u, 0x02, 0xF)) })

/-- CAL_UNIT_FINISHED (R335, R338): the measurement of a unit on the path ends with these figures. -/
def effCalUnitFinished (u : Nat) (x : UnitResult) (s : Block) : Out :=
  withIdx 104 u <|
    match s.cal.run, calJob s with
    | some r, some j =>
      match r.busy.find? (fun b => b.1 == u) with
      | none => .next s
      | some b =>
        if modeOf s != 3 || (decide (u < 64) && ostate s u != 0) then .next s
        else
          let bad := calVerdict s r.p u x
          let t := putMeasured r.p s u x
          let t := match bad with
            | some f => calReject (restoreBank t u) u f.1 f.2
            | none => t
          let r := { r with
            busy := r.busy.erase b
            fails := match bad with
              | some f => r.fails ++ [(u, f.1, f.2)]
              | none => r.fails
            good := if bad.isSome then r.good else r.good ++ [(u, calFigures s r.p u x)] }
          let t := calLeave (incF t F.CAL_STATE_DONE) b
          let t := if decide (u < 96) && (r.left.getD (listOf u) []).isEmpty then calDrift t r (listOf u) x.drift
            else setRun t (some r)
          .next (settleJobs (calSettle t j))
    | _, _ => .next s

/-! ## CAL_COMMIT (R342 to R344) -/

/-- Every unit that CAL_COMMIT or CAL_DISCARD names (Table 15-6). -/
def commitUnits (s : Block) (p : List Word) : List Nat :=
  if pb p 4 8 8 = 1 then pendUnits s else runUnits p

/-- The first reason among rows 0x10 to 0x12 of Table 15-4 that a host-written bank fails; 0: none. -/
def hostBankBad (s : Block) (u : Nat) : Nat :=
  let ks := List.range (calSlots u)
  let w := fun k i => bankWord s u (1 - calBank s u) k i
  if ks.any (fun k => gainMoved s u k (w k)) then 0x10
  else if ks.any (fun k => offsMoved s u k (w k)) then 0x11
  else if ks.any (fun k => inlMoved s u k (w k)) then 0x12
  else 0

/-- What is committed for a host-written bank: identifiers of the active slot, no figures. -/
def hostPend (s : Block) (u : Nat) : CalPend :=
  { tap := natBits (activeWord s u 0x28) 5 0, xdelay := activeWord s u 0x2C, refv := activeWide s u 0x10,
    resv := activeWide s u 0x18, refId := activeWord s u 0x20, resId := activeWord s u 0x24 }

/-- The change that commits unit `u` (R342, R343), with its audit record. -/
def commitTx (s : Block) (j : Job) (u : Nat) : NvmTx :=
  let host := pb j.p 4 9 9 = 1
  let x := if host then hostPend s u else (calPend s u).getD {}
  let origin := b2n (inWindow s j.h.ring)
  let cls := if j.h.ring = 3 then 0 else 1
  if u < 96 then
    let b := 1 - calBank s u
    let sq := (activeWord s u 0 + 1) % 2 ^ 32
    let bytes := slotBytes0 s u b sq (if host then 2 else 1) x
    let a := slotAddr u b
    ⟨8, u, cls, j.h.ring, j.id, [],
      [1, origin, 0, u, activeWord s u 0xFFC, bytesNat (bytes.drop 0xFFC), sq, x.refId, x.resId, x.refv, x.resv],
      0, ⟨3, a, []⟩ :: pagePrograms a bytes⟩
  else
    let c := u - 96
    let of := fun (l : List Nat) => (List.range 8).map (fun j => l.getD j 0)
    ⟨10, c, cls, j.h.ring, j.id, [b2n (!x.taps.isEmpty), b2n (!x.eyes.isEmpty)] ++ of x.taps ++ of x.eyes,
      [3, origin, 0, c, 0, 0, 0, x.refId, x.resId, x.refv, x.resv], 0, []⟩

/-- A failed commit: the units before it stay committed. -/
def commitFailed (s : Block) (j : Job) (status : Nat) : Block :=
  let s := setF s F.CAL_STATE_PHASE (if s.cal.run.isSome then 2 else 0)
  let s := if j.due = 1 then pacRelease s 6 100 else s
  endJob s j status (if status = Sts.nvmFail then (j.todo.drop 1).headD 0 else j.detail)

/-- The record of lane cluster `c` can be rewritten: the one in force is valid; under the rules of lane records (R171, R343)
one that is not would be refused with BAD_PARAM (DEDUCED, log entry 37). -/
def laneWritable (s : Block) (c : Nat) : Bool := ((laneRec s c).filter (laneRecOk c)).isSome

/-- The run in progress has nothing kept for unit `u` any more: its pending result is being committed. -/
def dropSaved (s : Block) (u : Nat) : Block :=
  match s.cal.run with
  | some r => setRun s (some { r with saved := r.saved.filter (fun x => x.unit != u) })
  | none => s

/-- The next unit of a commit is written; after the last the power is released and the command completes. `due` is 1
once its power is held; `todo`: 0 while power is awaited, 1 while the head unit is written, 2 while its swap is awaited; the units left. -/
def commitNext (s : Block) (j : Job) (l : List Nat) : Block :=
  match l with
  | [] =>
    let s := setF (pacRelease s 6 100) F.CAL_STATE_PHASE (if s.cal.run.isSome then 2 else 0)
    endJob s j Sts.ok 0
  | u :: _ =>
    if decide (96 ≤ u) && !laneWritable s (u - 96) then commitFailed s { j with due := 1, detail := u } Sts.badParam
    else
      let s := dropSaved (restoreBank s u) u
      nvmKick (nvmQueue (putJob s j { j with todo := 1 :: l, due := 1 }) (commitTx s j u))

/-- CAL_COMMIT's checks and first step. -/
def calCommitBody (h : Hdr) (s : Block) (p : List Word) : CmdRes :=
  let host := pb p 4 9 9 = 1
  let us := commitUnits s p
  let m := modeOf s
  if !(m = 1 || m = 2 || m = 3) then .fail s Sts.state
  else if host && us.any (fun u => decide (96 ≤ u)) then .fail s Sts.badParam
  else if us.any (fun u => (calPend s u).isSome == host) then .fail s Sts.state
  else if s.cmd.jobs.any (fun j => j.op == Op.calCommit) then .fail s Sts.busy
  else
    match (if host then us.find? (fun u => hostBankBad s u != 0) else none) with
    | some u => .failD s Sts.calImplausible (hostBankBad s u)
    | none =>
      let a := pacAsk s ⟨1, us.headD 110, [(6, 100)], .cmd Op.calCommit, h.ring, s.cmd.cur, s.now + toCmd s⟩ false
      let t := setF a.1 F.CAL_STATE_PHASE 3
      match a.2 with
      | .deny => .fail a.1 Sts.powerDenied
      | .queue => .more t 0 0 (0 :: us)
      | .grant => .more t 0 0 (3 :: us)

/-- CAL_COMMIT (0x51). -/
def effCalCommit (h : Hdr) (p : List Word) (s : Block) : Out :=
  runCmd s h Op.calCommit p [] (· == 5) [0xFFFFFFFF, 0xFFFFFFFF, 0xFFFFFFFF, 0x3FF] (calCommitBody h)

/-- Unit `u` swaps to the bank just written: at its next frame boundary, or at its next sample tick; a unit that does
not convert takes it at once (R337, R342). -/
def calSwap (s : Block) (u : Nat) : Block :=
  if u < 64 then setUnit s u { unit s u with swapDue := some (s.sysTime + 1) }
  else
    let n := u - 64
    let t := { s with cal := { s.cal with aswap := s.cal.aswap ++ [(n, s.sysTime)] } }
    if flag s (aF n F.A_CTRL_EN) then t else swapABank t n (s.sysTime + 1)

/-- The swap of unit `u` has applied. -/
def calSwapped (s : Block) (u : Nat) : Bool :=
  if u < 64 then (unit s u).swapDue.isNone else !s.cal.aswap.any (fun p => p.1 == u - 64)

/-- Unit `u` is committed. -/
def calCommitted (s : Block) (j : Job) (u : Nat) (l : List Nat) : Block :=
  let s := if u < 96 then
      actPerUnit { s with cal := { s.cal with src := Tbl.set (fun _ => 0) s.cal.src u 0 } } u
    else s
  let s := incF (raise (setPend s u none) F.CAL_STATUS_COMMITTED) F.CAL_COMMITS_COUNT
  commitNext s { j with steps := j.steps + 1 } l

/-- A later step of CAL_COMMIT. -/
def commitContinue (s : Block) (j : Job) : Block :=
  let hd := j.todo.headD 0
  let l := j.todo.drop 1
  if 0x1000 ≤ hd then commitFailed s j (hd - 0x1000)
  else if hd = 0 then if (queuedFor s j).isEmpty then commitNext s j l else s
  else if hd = 3 then commitNext s j l
  else
    match l with
    | [] => s
    | u :: t =>
      if hd = 1 then
        if s.nvm.txs.any (fun x => isTxJob x j) then s
        else if u < 96 then putJob (calSwap s u) j { j with todo := 2 :: l }
        else calCommitted s j u t
      else if calSwapped s u then calCommitted s j u t
      else s

/-! ## CAL_DISCARD (R344) -/

/-- CAL_DISCARD's checks and effect. -/
def calDiscardBody (s : Block) (p : List Word) : CmdRes :=
  let us := commitUnits s p
  notInBoot s <|
    if s.cmd.jobs.any (fun j => j.op == Op.calCommit && us.any (fun u => (j.todo.drop 1).contains u)) then
      .fail s Sts.busy
    else
      let mine := us.filter (fun u => (calPend s u).isSome)
      let s := forEach mine s (fun s u => setPend s u none)
      .okay (if mine.isEmpty then s else raise s F.CAL_STATUS_DISCARDED)

/-- CAL_DISCARD (0x52). -/
def effCalDiscard (h : Hdr) (p : List Word) (s : Block) : Out :=
  runCmd s h 0x52 p [] (· == 5) [0xFFFFFFFF, 0xFFFFFFFF, 0xFFFFFFFF, 0x1FF] calDiscardBody

/-! ## AUDIT_READ (R347) -/

/-- The oldest stored sequence number. -/
def auditOldest (s : Block) : Nat := auditNext s - getF s F.CAL_AUDIT_STAT_STORED

/-- One record copied, or the end of the command. `todo`: the records copied. -/
def auditStep (s : Block) (h : Hdr) (p : List Word) (i : Nat) : Block × Option Nat :=
  let sq := pw64 p 1 + i
  if sq < auditOldest s || auditNext s ≤ sq then (s, some Sts.partially)
  else
    let s := toHost s h (pw64 p 4 + 64 * i) (nvmBytes s (auditAddr sq) 64)
    (s, if i + 1 = pw p 3 then some Sts.ok else none)

/-- Records copied after the step on record `i` that ended with `r`. -/
def auditCount (i : Nat) (r : Option Nat) : Nat := if r = some Sts.partially then i else i + 1

/-- AUDIT_READ's checks and first step. -/
def auditReadBody (h : Hdr) (s : Block) (p : List Word) : CmdRes :=
  let n := pw p 3
  notInBoot s <|
    if n = 0 || decide (65536 < n) || !destOk s h (pw64 p 4) (64 * n) then .fail s Sts.badParam
    else
      let a := auditStep s h p 0
      match a.2 with
      | some st => .done a.1 st 0 (auditCount 0 a.2) (auditOldest s % 2 ^ 32)
      | none => .more a.1 1 (auditOldest s % 2 ^ 32) [1]

/-- AUDIT_READ (0x5A). -/
def effAuditRead (h : Hdr) (p : List Word) (s : Block) : Out :=
  runCmd s h Op.auditRead p [] (· == 6)
    [0xFFFFFFFF, 0xFFFFFFFF, 0xFFFFFFFF, 0xFFFFFFFF, 0xFFFFFFFF] (auditReadBody h)

/-- A later step of AUDIT_READ. -/
def auditContinue (s : Block) (j : Job) : Block :=
  let i := j.todo.headD 0
  let a := auditStep s j.h j.p i
  let k := { j with steps := auditCount i a.2, result := auditOldest s % 2 ^ 32, todo := [i + 1] }
  match a.2 with
  | some st => endJob a.1 { j with steps := k.steps, result := k.result } st 0
  | none => putJob a.1 j k

/-! ## The meanings -/

/-- CAL_RUN (0x50), done to the block; the queue stays. -/
def execCalRun (h : Hdr) (p : List Word) (st : Standards) (s : State) : Host.Outcome State Fault Refusal :=
  onBlock s (effCalRun h p st)

/-- CAL_UNIT_FINISHED (R335, R338), done to the block; the queue stays. -/
def execCalUnitFinished (u : Nat) (x : UnitResult) (s : State) : Host.Outcome State Fault Refusal :=
  onBlock s (effCalUnitFinished u x)

/-- CAL_COMMIT (0x51), done to the block; the queue stays. -/
def execCalCommit (h : Hdr) (p : List Word) (s : State) : Host.Outcome State Fault Refusal :=
  onBlock s (effCalCommit h p)

/-- CAL_DISCARD (0x52), done to the block; the queue stays. -/
def execCalDiscard (h : Hdr) (p : List Word) (s : State) : Host.Outcome State Fault Refusal :=
  onBlock s (effCalDiscard h p)

/-- AUDIT_READ (0x5A), done to the block; the queue stays. -/
def execAuditRead (h : Hdr) (p : List Word) (s : State) : Host.Outcome State Fault Refusal :=
  onBlock s (effAuditRead h p)

end Sys2Proof.Machine
end

