-- ==== Sys2Proof/Machine/Events.lean ====
section
/-! DEFINITION. The event router (R208 to R223): firings, deliveries, consumers, timers, EVOUT, EVIN. -/

namespace Sys2Proof.Machine

/-- The router works: in every mode but BOOT and SLEEP (R208). -/
def routerOn (s : Block) : Bool := modeOf s != 0 && modeOf s != 5

/-! ## Firings -/

/-- The estimated pad crossing of an input event stamped `c`; the stamp itself for any other source (R222). -/
def stampTime (s : Block) (src c : Nat) : Nat :=
  if 144 ≤ src && src < 152 then c - (40 + getF s (lF 7 F.LC_INCFG_FILT) * 5)
  else if 152 ≤ src && src < 160 then c - (40 + getF s F.EVENT_EVINCFG_FILT * 5)
  else c

/-- A field of time-stamp capture `n`. -/
def capF (n : Nat) (f : Fld) : Fld := f.at (0x10 * n)

/-- TSCAP`n` sees source `src` fire in cycle `c` (R222). -/
def tscap (src c : Nat) (s : Block) (n : Nat) : Block :=
  if !flag s (capF n F.EVENT_TSCAP0_CFG_EN) || getF s (capF n F.EVENT_TSCAP0_CFG_SRC) != src then s
  else
    let s := incF s (capF n F.EVENT_TSCAP0_COUNT_COUNT)
    let first := flag s (capF n F.EVENT_TSCAP0_CFG_MODE)
    if first && flag s (capF n F.EVENT_TSCAP0_CFG_DONE) then s
    else
      let s := set64 s (capF n F.EVENT_TSCAP0_T_LO_T) (capF n F.EVENT_TSCAP0_T_HI_T) (stampTime s src c)
      if first then raise s (capF n F.EVENT_TSCAP0_CFG_DONE) else s

/-- Source `src` fires in the cycle that starts at `c`. -/
def fireAt (s : Block) (src hop c : Nat) : Block :=
  let s := { s with event := { s.event with bus := s.event.bus ++ [(src, hop, c)] } }
  let s := if getF s F.EVENT_SRCSEL_SRC = src then incF s F.EVENT_SRCCOUNT_COUNT else s
  let s := forEach (List.range 8) s (tscap src c)
  pruneAcq { s with acq := { s.acq with fired := s.acq.fired ++ [(src, c, hop)] } }

/-- EVENT_FIRE (R208, R209): a firing that is due enters the router, stamped with the present cycle; a source fires
once per cycle. A firing that nothing caused does not happen; with the router off it is lost. -/
def effEventFire (src hop : Nat) (s : Block) : Out :=
  withIdx 192 src <|
    match s.fires.find? (fun f => f.src == src && f.hop == hop && decide (f.due ≤ s.sysTime)) with
    | none => .next s
    | some f =>
      let c := floorTo s.sysTime 5
      let gone := { s with fires := s.fires.erase f }
      if !routerOn s then .next gone
      else if s.event.bus.any (fun e => e.1 == src && e.2.2 == c) then .next s
      else .next (fireAt gone src hop c)

/-! ## Consumers clocked by the router -/

/-- A bit of OVR set (R215). -/
def eventOvr (s : Block) (f : Fld) (k : Nat) : Block :=
  raise (setF s ⟨f.adr, f.lo + k, f.lo + k⟩ 1) F.EVENT_STATUS_OVERRUN

/-- A bit of EVOUT_STAT. -/
def evStat (f : Fld) (n : Nat) : Fld := ⟨f.adr, f.lo + n, f.lo + n⟩

/-- The pulse width of EVOUT `n` in ns. -/
def pulseWidth (s : Block) (n : Nat) : Nat := max 1 (getF s (evoF n F.EVENT_EVOUT0_WIDTH)) * 25

/-- A time of EVOUT `n` in a table of them (+ 1; 0 none). -/
def evTime (l : List (Nat × Nat)) (n : Nat) : Nat := Tbl.get (fun _ => 0) l n

/-- A pulse of EVOUT `n` begins at `t`. -/
def startPulse (s : Block) (n t : Nat) : Block :=
  let p := Tbl.set (fun _ => 0) s.event.pulses n (t + pulseWidth s n + 1)
  let s := { s with event := { s.event with pulses := p, starts := Tbl.set (fun _ => 0) s.event.starts n 0 } }
  let s := setF s (evStat F.EVENT_EVOUT_STAT_QUEUED n) 0
  syncEvout (setF s (evStat F.EVENT_EVOUT_STAT_ACTIVE n) 1)

/-- The pulse of EVOUT `n` ends at `t`; with `next` another begins 25 ns later. -/
def pulseEnds (s : Block) (n t : Nat) (next : Bool) : Block :=
  let e := s.event
  let st := Tbl.set (fun _ => 0) e.starts n (if next then t + 25 + 1 else 0)
  let s := { s with event := { e with
    pulses := Tbl.set (fun _ => 0) e.pulses n 0, ended := Tbl.set (fun _ => 0) e.ended n (t + 1), starts := st } }
  let s := setB s (evStat F.EVENT_EVOUT_STAT_QUEUED n) next
  syncEvout (setF s (evStat F.EVENT_EVOUT_STAT_ACTIVE n) 0)

/-- A delivery to EVOUT `n` in the cycle that starts at `c` (R221, R223). -/
def evoutEvent (s : Block) (n c : Nat) : Block :=
  match getF s (evoF n F.EVENT_EVOUT0_MODE) with
  | 0 =>
    let e := evTime s.event.pulses n
    let queued := flag s (evStat F.EVENT_EVOUT_STAT_QUEUED n)
    if (e = c + 1 || (e = 0 && evTime s.event.ended n = c + 1)) && !queued then pulseEnds s n c true
    else if e = 0 && !queued then startPulse s n c
    else if flag s (evoF n F.EVENT_EVOUT0_QUEUE) && !queued then
      setF s (evStat F.EVENT_EVOUT_STAT_QUEUED n) 1
    else eventOvr s F.EVENT_OVR_EVOUT n
  | 1 =>
    let t := s.event.tog ^^^ 2 ^ n
    syncEvout { s with event := { s.event with tog := t } }
  | _ => s

/-- EVOUT_PULSE_END (R221): the pulse of EVOUT `n` ends, a queued one starts 25 ns later; a pulse whose start has
come begins. -/
def effEvoutPulseEnd (n : Nat) (s : Block) : Out :=
  withIdx 8 n <|
    let e := evTime s.event.pulses n
    let b := evTime s.event.starts n
    if !routerOn s then .next s
    else if e != 0 && decide (e ≤ s.sysTime + 1) then
      .next (pulseEnds s n (e - 1) (flag s (evStat F.EVENT_EVOUT_STAT_QUEUED n)))
    else if b != 0 && decide (b ≤ s.sysTime + 1) then .next (startPulse s n (b - 1))
    else .next s

/-! ## Timers (R218) -/

/-- A field of timer `n`. -/
def tmF (n : Nat) (f : Fld) : Fld := f.at (0x10 * n)

/-- Timer `n`. -/
def tmr (s : Block) (n : Nat) : Tmr := Tbl.get (fun _ => ({} : Tmr)) s.event.tmrs n

/-- A register as it stood at the start of this cycle: what a host writes in the cycle acts from the next one on (Table
10-4). -/
def regThen (s : Block) (a : Nat) : Word := (writtenNow s a).getD (getP s a)

/-- A field of timer `n`'s registers as the cycle began. -/
def tmrThen (s : Block) (n : Nat) (f : Fld) : Nat := bits (regThen s (tmF n f).adr) f.hi f.lo

/-- The CFG by which timer `n` takes a delivery: that of its run, else the one in force (R218). -/
def tmrCfg (s : Block) (n : Nat) : Word :=
  if (tmr s n).next = 0 then regThen s (tmF n F.EVENT_TMR0_CFG_MODE).adr else (tmr s n).cfg

/-- DELAY in force, at least one cycle. -/
def tmrDelay (s : Block) (n : Nat) : Nat := max 1 (tmrThen s n F.EVENT_TMR0_DELAY_CYCLES)

/-- Timer `n` changed, with TMRn.STAT. -/
def setTmr (s : Block) (n : Nat) (x : Tmr) : Block :=
  let s := { s with event := { s.event with tmrs := Tbl.set (fun _ => ({} : Tmr)) s.event.tmrs n x } }
  let left := if x.next != 0 then if x.bounded then x.left else 0xFFFFFF
    else if getF s (tmF n F.EVENT_TMR0_CFG_MODE) = 2 then
      max 1 (getF s (tmF n F.EVENT_TMR0_DELAY_CYCLES)) - x.count
    else 0
  let s := setF s (tmF n F.EVENT_TMR0_STAT_LEFT) (satU 24 left)
  setB (setB s (tmF n F.EVENT_TMR0_STAT_QUEUED) x.queued.isSome) (tmF n F.EVENT_TMR0_STAT_RUN)
    (x.next != 0)

/-- A run of timer `n` from cycle `c` on a delivery of hop count `h`, under the CFG, DELAY and PERIOD now in force. -/
def startTmr (s : Block) (n c h : Nat) (q : Option Nat) : Block :=
  let w := regThen s (tmF n F.EVENT_TMR0_CFG_MODE).adr
  let per := bits w 2 1 == 1
  let rep := bits w 31 16
  let p := max 1 (tmrThen s n F.EVENT_TMR0_PERIOD_CYCLES) * 5
  setTmr s n { tmr s n with
    next := c + tmrDelay s n * 5, left := if per then rep else 1, bounded := !(per && rep == 0)
    hop := if tmrThen s n F.EVENT_TMR0_DELAY_CYCLES = 0 then h + 1 else 0, period := p, queued := q, cfg := w }

/-- Timer `n` fires at its time; after the last firing a queued start begins in the next cycle. -/
def tmrFires (s : Block) (n : Nat) : Block :=
  let x := tmr s n
  let s := fireBy s (136 + n) x.hop x.next (136 + n)
  if x.bounded && decide (x.left ≤ 1) then
    let s := setTmr s n { x with next := 0, left := 0, queued := none }
    match x.queued with
    | some h => startTmr s n (x.next + 5) h none
    | none => s
  else setTmr s n { x with next := x.next + x.period, left := x.left - 1 }

/-- A firing of timer `n` that is due by `t` takes place. -/
def tmrDue (s : Block) (n t : Nat) : Block :=
  if (tmr s n).next = 0 || decide (t < (tmr s n).next) then s else tmrFires s n

/-- A delivery of `k` events of hop count `h` to timer `n` in cycle `c`. A count that comes in the very cycle in which CFG is
written acts under the old CFG, also where the new one stops the timer (Table 10-4). -/
def tmrEvent (s : Block) (n c h k : Nat) : Block :=
  let s := tmrDue s n c
  let x := tmr s n
  let w := tmrCfg s n
  if !bit w 0 then s
  else if !flag s (tmF n F.EVENT_TMR0_CFG_EN) then
    let was := if s.event.tmrAt = cycleOf s + 1 then s.event.tmrOld.find? (fun e => e.1 == n) else none
    match was with
    | some o =>
      if bits w 2 1 = 2 && decide (tmrDelay s n ≤ o.2.count + k) then
        fireBy s (136 + n) (h + 1) (c + 5) (136 + n)
      else s
    | none => s
  else if bits w 2 1 = 2 then
    let d := tmrDelay s n
    let m := x.count + k
    if d ≤ m then fireBy (setTmr s n { x with count := m - d }) (136 + n) (h + 1) (c + 5) (136 + n)
    else setTmr s n { x with count := m }
  else if x.next = 0 then startTmr s n c h none
  else
    match bits w 4 3 with
    | 1 => if x.queued.isSome then eventOvr s F.EVENT_OVR_TMR n else setTmr s n { x with queued := some h }
    | 2 => startTmr s n c h x.queued
    | _ => eventOvr s F.EVENT_OVR_TMR n

/-- TMR_FIRE (R218): timer `n` fires when its time has come; after the last firing a queued start begins in the
next cycle. -/
def effTmrFire (n : Nat) (s : Block) : Out :=
  withIdx 8 n <| .next (if routerOn s then tmrDue s n s.sysTime else s)

/-- TMRn.CFG was written: EN at 0 stops the timer and empties its queue, after a firing of this cycle (Table 10-4). -/
def tmrCfgWritten (s : Block) (n : Nat) : Block :=
  if flag s (tmF n F.EVENT_TMR0_CFG_EN) then setTmr s n (tmr s n)
  else
    let s := tmrDue s n s.sysTime
    let old := if s.event.tmrAt = cycleOf s + 1 then s.event.tmrOld else []
    let old := if old.any (fun e => e.1 == n) then old else (n, tmr s n) :: old
    setTmr { s with event := { s.event with tmrAt := cycleOf s + 1, tmrOld := old } } n {}

/-! ## GEV out (R226, R228, R233, R234) -/

/-- The node has declared GCLK lost (R233). -/
def gclkGone (s : Block) : Bool := flag s F.GYDEN_CONFIG_EN && s.gyden.lost

/-- Line `k` is a level line. -/
def levelLine (s : Block) (k : Nat) : Bool := (getF s F.GYDEN_GEVCFG_LMODE).testBit k

/-- A delivery to the GEV-out sink of line `k` in cycle `c`. -/
def gevOutEvent (s : Block) (k c : Nat) : Block :=
  let g := s.gyden
  if gclkGone s then incF (raise s F.GYDEN_STATUS_TX_DROP) F.GYDEN_TX_DROP_COUNT
  else if levelLine s k then s
  else
    match g.slots.find? (fun p => p.1 == k) with
    | none => { s with gyden := { g with slots := g.slots ++ [(k, ceilTo (c + 50) 200)] } }
    | some p =>
      if p.2 ≤ c then
        { s with gyden := { g with slots := g.slots ++ [(k, ceilTo (c + 50) 200)] } }
      else if (getF s F.GYDEN_GEVCFG_Q).testBit k && !g.queued.contains k then
        { s with gyden := { g with queued := g.queued ++ [k] } }
      else eventOvr s F.EVENT_OVR_GEV k

/-! ## Deliveries (R212 to R215) -/

/-- The committed route entry of sink `k`: its sources and its configuration. -/
def routeSrc (s : Block) (k : Nat) : Word := Tbl.get (fun _ => (0 : Word)) s.event.rtSrc k
def routeCfg (s : Block) (k : Nat) : Word := Tbl.get (fun _ => (0 : Word)) s.event.rtCfg k

/-- The entry of sink `k` in force at the start of this router cycle (R213). -/
def routeThen (s : Block) (k : Nat) : Word × Word :=
  if s.event.rtAt = cycleOf s + 1 then
    ((s.event.rtOld.find? (fun e => e.1 == k)).map (·.2)).getD (routeSrc s k, routeCfg s k)
  else (routeSrc s k, routeCfg s k)

/-- The sources that sink `k` routes. -/
def routedSources (s : Block) (k : Nat) : List Nat :=
  let e := routeThen s k
  ((List.range 4).filter (fun i => bit e.2 i)).map (fun i => bits e.1 (8 * i + 7) (8 * i))

/-- Counts of sink `k`: deliveries and blocked. -/
def addCounts (s : Block) (k del blk : Nat) : Block :=
  let c := Tbl.get (fun _ => 0) s.event.counts k
  let n := (c + del) % 65536 + (c / 65536 + blk) % 65536 * 65536
  { s with event := { s.event with counts := Tbl.set (fun _ => 0) s.event.counts k n } }

/-- The consumer of sink `k` takes a delivery of `n` events, the highest hop count among them `h`, in the cycle that
starts at `c` (Table 10-2). -/
def consume (s : Block) (k h n c : Nat) : Block :=
  let e := ceilTo c 25
  if k < 112 then
    let q := k / 7
    match k % 7 with
    | 4 => gateEvent s q e
    | 5 => startEvent s q e
    | 6 => stopEvent s q e (getF s (qF q F.SEQ_CTRL_STOP_MODE)) 2 (h + 1) false
    | j => (jumpEvent s q j e false (h + 1)).1
  else if k < 116 then armEvent s (k - 112) e
  else if k < 120 then forceEvent s (k - 116) e (h + 1)
  else if k < 128 then gevOutEvent s (k - 120) c
  else if k < 136 then evoutEvent s (k - 128) c
  else if k < 144 then tmrEvent s (k - 136) c h n
  else takeStrobe s (k - 144) e (e + 4000) 2

/-- Sink `k` in the delivery cycle `c` of the events `ev` (source, hop), with the gate levels of its start. -/
def deliver (ev : List (Nat × Nat)) (levels c : Nat) (s : Block) (k : Nat) : Block :=
  let srcs := routedSources s k
  let hits := ev.filter (fun e => srcs.contains e.1)
  if hits.isEmpty then s
  else
    let cfg := (routeThen s k).2
    let open' := !bit cfg 9 || levels.testBit (bits cfg 8 4) != bit cfg 10
    if !open' then incF (addCounts s k 0 1) F.EVENT_GATED_COUNT
    else
      let cnt := if bit cfg 11 then hits.length else 1
      let s := incF (addCounts s k cnt 0) F.EVENT_DELIVERED_COUNT
      let s := if 1 < hits.length then
          let s := setF s ⟨R.EVENT_COINC0 + 4 * (k / 32), k % 32, k % 32⟩ 1
          let s := setF (setF s F.EVENT_COINC_LAST_VALID 1) F.EVENT_COINC_LAST_SINK k
          raise s F.EVENT_STATUS_COINCIDENT
        else s
      consume s k (hits.foldl (fun m e => max m e.2) 0) cnt c

/-- EVENT_DELIVERY (R212): the events of the earliest cycle still to be delivered reach every sink that routes them,
in the cycle after. -/
def effEventDelivery (s : Block) : Out :=
  match s.event.bus with
  | [] => .next s
  | b :: t =>
    let c := t.foldl (fun m e => min m e.2.2) b.2.2
    if s.sysTime < c + 5 then .next s
    else
      let ev := (s.event.bus.filter (fun e => e.2.2 == c)).map (fun e => (e.1, e.2.1))
      let s := { s with event := { s.event with bus := s.event.bus.filter (fun e => e.2.2 != c) } }
      if !routerOn s then .next s
      else .next (settleJobs (forEach (List.range 160) s (deliver ev (levelsThen s) (c + 5))))

/-! ## Software events, pins and routes -/

/-- SWEV (R219): all bits of `v` fire in one router cycle. -/
def swevOp (s : Block) (v : Nat) : Block :=
  forEach (bitList v 8) s (fun s k => fire s (184 + k) 0 s.sysTime)

/-- EVIN_EDGE (R220): pin EVIN`k` shows a level that has now been read on `samples` consecutive samples; the filter accepts
it after FILT + 1, as that of an input lane does (R175). An edge of the selected kind fires source 152 + `k`, at most once
per 10 ns; EDGE and FILT written in this very cycle judge the next sample. -/
def effEvinEdge (k : Nat) (level : Bool) (samples : Nat) (s : Block) : Out :=
  withIdx 8 k <|
    let cfg := regThen s R.EVENT_EVINCFG
    if s.event.evin.testBit k == level || !routerOn s ||
        decide (samples ≤ bits cfg F.EVENT_EVINCFG_FILT.hi F.EVENT_EVINCFG_FILT.lo) then .next s
    else
      let v := mergeMask s.event.evin (b2n level * 2 ^ k) (2 ^ k)
      let s := syncLevels { s with event := { s.event with evin := v } }
      let edge := bits cfg (2 * k + 1) (2 * k)
      let last := Tbl.get (fun _ => 0) s.event.evinAt k
      if !edge.testBit (if level then 0 else 1) || (last != 0 && decide (s.sysTime < last - 1 + 10)) then
        .next s
      else
        let m := Tbl.set (fun _ => 0) s.event.evinAt k (s.sysTime + 1)
        .next (fire { s with event := { s.event with evinAt := m } } (152 + k) 0 s.sysTime)

/-- RT_SEL written (R213): the staging copy is loaded with the committed entry. -/
def rtSelOp (s : Block) (v : Nat) : Block :=
  let s := setF s F.EVENT_RT_SEL_SINK v
  let k := getF s F.EVENT_RT_SEL_SINK
  let s := putM s R.EVENT_RT_SRC 0xFFFFFFFF (routeSrc s k).toNat
  putM s R.EVENT_RT_CFG 0xFFFFFFFF (routeCfg s k).toNat

/-- RT_GO (R213): the staging copy is committed as one entry. -/
def rtGoOp (s : Block) : Block :=
  let k := getF s F.EVENT_RT_SEL_SINK
  let w := getW s R.EVENT_RT_SRC
  if decide (159 < k) || (List.range 4).any (fun i => decide (192 ≤ bits w (8 * i + 7) (8 * i))) then
    raise s F.EVENT_STATUS_RT_REFUSED
  else
    let old := if s.event.rtAt = cycleOf s + 1 then s.event.rtOld else []
    { s with event := { s.event with
    rtAt := cycleOf s + 1, rtOld := if old.any (fun e => e.1 == k) then old else (k, routeSrc s k, routeCfg s k) :: old
    rtSrc := Tbl.set (fun _ => (0 : Word)) s.event.rtSrc k w
    rtCfg := Tbl.set (fun _ => (0 : Word)) s.event.rtCfg k (getW s R.EVENT_RT_CFG) } }

/-- RT_CLR: the counts of the selected sink are cleared. -/
def rtClrOp (s : Block) : Block :=
  let k := getF s F.EVENT_RT_SEL_SINK
  { s with event := { s.event with counts := Tbl.set (fun _ => 0) s.event.counts k 0 } }

/-- RT_COUNT as it reads: the counts of the selected sink. -/
def rtCountView (s : Block) : Nat := Tbl.get (fun _ => 0) s.event.counts (getF s F.EVENT_RT_SEL_SINK)

/-! ## The meanings -/

/-- EVENT_FIRE (R208, R209), done to the block; the queue stays. -/
def execEventFire (src hop : Nat) (s : State) : Host.Outcome State Fault Refusal :=
  onBlock s (effEventFire src hop)

/-- EVOUT_PULSE_END (R221), done to the block; the queue stays. -/
def execEvoutPulseEnd (n : Nat) (s : State) : Host.Outcome State Fault Refusal :=
  onBlock s (effEvoutPulseEnd n)

/-- TMR_FIRE (R218), done to the block; the queue stays. -/
def execTmrFire (n : Nat) (s : State) : Host.Outcome State Fault Refusal :=
  onBlock s (effTmrFire n)

/-- EVENT_DELIVERY (R212), done to the block; the queue stays. -/
def execEventDelivery (s : State) : Host.Outcome State Fault Refusal :=
  onBlock s (effEventDelivery)

/-- EVIN_EDGE (R220), done to the block; the queue stays. -/
def execEvinEdge (k : Nat) (e : PadEdge) (s : State) : Host.Outcome State Fault Refusal :=
  onBlock s (effEvinEdge k e.level e.samples)

end Sys2Proof.Machine
end

