-- ==== Sys2Proof/Machine/Crypto.lean ====
section
/-! DEFINITION. What the boot ROM computes over an image (R306): the SHA-256 digest (FIPS 180-4) and the check of an ECDSA
signature over P-256 (FIPS 186-4). -/

namespace Sys2Proof.Machine

/-! ## SHA-256 -/

/-- The 64 round constants. -/
def shaK : List Nat :=
  [0x428a2f98, 0x71374491, 0xb5c0fbcf, 0xe9b5dba5, 0x3956c25b, 0x59f111f1, 0x923f82a4, 0xab1c5ed5] ++
  [0xd807aa98, 0x12835b01, 0x243185be, 0x550c7dc3, 0x72be5d74, 0x80deb1fe, 0x9bdc06a7, 0xc19bf174] ++
  [0xe49b69c1, 0xefbe4786, 0x0fc19dc6, 0x240ca1cc, 0x2de92c6f, 0x4a7484aa, 0x5cb0a9dc, 0x76f988da] ++
  [0x983e5152, 0xa831c66d, 0xb00327c8, 0xbf597fc7, 0xc6e00bf3, 0xd5a79147, 0x06ca6351, 0x14292967] ++
  [0x27b70a85, 0x2e1b2138, 0x4d2c6dfc, 0x53380d13, 0x650a7354, 0x766a0abb, 0x81c2c92e, 0x92722c85] ++
  [0xa2bfe8a1, 0xa81a664b, 0xc24b8b70, 0xc76c51a3, 0xd192e819, 0xd6990624, 0xf40e3585, 0x106aa070] ++
  [0x19a4c116, 0x1e376c08, 0x2748774c, 0x34b0bcb5, 0x391c0cb3, 0x4ed8aa4a, 0x5b9cca4f, 0x682e6ff3] ++
  [0x748f82ee, 0x78a5636f, 0x84c87814, 0x8cc70208, 0x90befffa, 0xa4506ceb, 0xbef9a3f7, 0xc67178f2]

/-- A 32-bit word turned right by `n` bits. -/
def rotr (x n : Nat) : Nat := (x >>> n) ||| ((x <<< (32 - n)) % 2 ^ 32)

/-- The message schedule, newest word first, `n` words longer. -/
def shaExtend : Nat → List Nat → List Nat
  | 0, l => l
  | n + 1, l =>
    let a := l.getD 14 0
    let b := l.getD 1 0
    let s0 := rotr a 7 ^^^ rotr a 18 ^^^ (a >>> 3)
    let s1 := rotr b 17 ^^^ rotr b 19 ^^^ (b >>> 10)
    shaExtend n ((l.getD 15 0 + s0 + l.getD 6 0 + s1) % 2 ^ 32 :: l)

/-- One round on the eight working words. -/
def shaRound : List Nat → Nat → List Nat
  | [a, b, c, d, e, f, g, h], kw =>
    let s1 := rotr e 6 ^^^ rotr e 11 ^^^ rotr e 25
    let ch := (e &&& f) ^^^ ((2 ^ 32 - 1 - e) &&& g)
    let t1 := h + s1 + ch + kw
    let s0 := rotr a 2 ^^^ rotr a 13 ^^^ rotr a 22
    let mj := (a &&& b) ^^^ (a &&& c) ^^^ (b &&& c)
    [(t1 + s0 + mj) % 2 ^ 32, a, b, c, (d + t1) % 2 ^ 32, e, f, g]
  | l, _ => l

/-- Bytes as one number, the first the most significant. -/
def bigEndian (l : List Byte) : Nat := l.foldl (fun n b => n * 256 + b.toNat) 0

/-- The hash after one more block of 64 bytes. -/
def shaBlock (h : List Nat) (block : List Byte) : List Nat :=
  let w := (List.range 16).map (fun i => bigEndian ((block.drop (4 * i)).take 4))
  let l := (shaExtend 48 w.reverse).reverse
  let r := (l.zip shaK).foldl (fun h x => shaRound h (x.1 + x.2)) h
  (h.zip r).map (fun x => (x.1 + x.2) % 2 ^ 32)

/-- The padding of a message of `n` bytes: a one bit, zeros, its length in bits. -/
def shaPad (n : Nat) : List Byte :=
  0x80 :: (List.replicate ((119 - n % 64) % 64) 0 ++ (List.range 8).map (fun i => BitVec.ofNat 8 (n * 8 / 256 ^ (7 - i))))

/-- The digest of a message: eight words. -/
def sha256 (m : List Byte) : List Nat :=
  let l := m ++ shaPad m.length
  (List.range (l.length / 64)).foldl (fun h i => shaBlock h ((l.drop (64 * i)).take 64))
    [0x6a09e667, 0xbb67ae85, 0x3c6ef372, 0xa54ff53a, 0x510e527f, 0x9b05688c, 0x1f83d9ab, 0x5be0cd19]

/-! ## P-256 -/

/-- The field prime. -/
def p256P : Nat := 2 ^ 256 - 2 ^ 224 + 2 ^ 192 + 2 ^ 96 - 1

/-- The order of the base point. -/
def p256N : Nat := 0xffffffff00000000ffffffffffffffffbce6faada7179e84f3b9cac2fc632551

/-- The coefficient b of the curve y² = x³ - 3x + b. -/
def p256B : Nat := 0x5ac635d8aa3a93e7b3ebbd55769886bc651d06b0cc53b0f63bce3c3e27d2604b

/-- A point in Jacobian coordinates; at infinity where z is 0. -/
structure CurvePt where
  x : Nat
  y : Nat
  z : Nat
  deriving DecidableEq, Repr

/-- The base point. -/
def p256G : CurvePt :=
  ⟨0x6b17d1f2e12c4247f8bce6e563a440f277037d812deb33a0f4a13945d898c296,
    0x4fe342e2fe1a7f9b8ee7eb4a7c0f9e162bce33576b315ececbb6406837bf51f5, 1⟩

/-- The point at infinity. -/
def CurvePt.inf : CurvePt := ⟨1, 1, 0⟩

/-- `a - b` in the field, of reduced numbers. -/
def subP (a b : Nat) : Nat := (a + p256P - b) % p256P

/-- Twice a point. -/
def CurvePt.dbl (a : CurvePt) : CurvePt :=
  if a.z = 0 || a.y = 0 then .inf
  else
    let zz := a.z * a.z % p256P
    let yy := a.y * a.y % p256P
    let s := 4 * a.x * yy % p256P
    let m := 3 * subP a.x zz * ((a.x + zz) % p256P) % p256P
    let x := subP (m * m % p256P) (2 * s % p256P)
    ⟨x, subP (m * subP s x % p256P) (8 * yy * yy % p256P), 2 * a.y * a.z % p256P⟩

/-- The sum of two points. -/
def CurvePt.add (a b : CurvePt) : CurvePt :=
  if a.z = 0 then b
  else if b.z = 0 then a
  else
    let za := a.z * a.z % p256P
    let zb := b.z * b.z % p256P
    let u1 := a.x * zb % p256P
    let u2 := b.x * za % p256P
    let s1 := a.y * zb * b.z % p256P
    let s2 := b.y * za * a.z % p256P
    if u1 = u2 then (if s1 = s2 then a.dbl else .inf)
    else
      let h := subP u2 u1
      let r := subP s2 s1
      let hh := h * h % p256P
      let hhh := h * hh % p256P
      let v := u1 * hh % p256P
      let x := subP (subP (r * r % p256P) hhh) (2 * v % p256P)
      ⟨x, subP (r * subP v x % p256P) (s1 * hhh % p256P), h * a.z * b.z % p256P⟩

/-- `k` times a point, from bit `n - 1` of `k` down. -/
def CurvePt.mul (a : CurvePt) (k : Nat) : Nat → CurvePt
  | 0 => .inf
  | n + 1 => mulBit a k ((a.mul (k / 2) n).dbl)
where
  /-- The point added where the last bit of `k` is 1. -/
  mulBit (a : CurvePt) (k : Nat) (q : CurvePt) : CurvePt := if k % 2 = 1 then q.add a else q

/-- `a` to the power `e` modulo `m`, with `n` bits of `e`. -/
def powMod (a e m : Nat) : Nat → Nat
  | 0 => 1 % m
  | n + 1 =>
    let q := powMod a (e / 2) m n
    if e % 2 = 1 then q * q % m * a % m else q * q % m

/-- The signature `sig` (r, then s) by the key `key` (X, then Y) over the message `m` is valid. -/
def ecdsaOk (key sig m : List Byte) : Bool :=
  let x := bigEndian (key.take 32)
  let y := bigEndian (key.drop 32)
  let r := bigEndian (sig.take 32)
  let s := bigEndian (sig.drop 32)
  let e := (sha256 m).foldl (fun n w => n * 2 ^ 32 + w) 0
  let w := powMod s (p256N - 2) p256N 256
  let q := ((p256G.mul (e * w % p256N) 256).add (CurvePt.mul ⟨x, y, 1⟩ (r * w % p256N) 256))
  let zi := powMod q.z (p256P - 2) p256P 256
  decide (x < p256P) && decide (y < p256P) && y * y % p256P == (x * x % p256P * x + p256B + 3 * (p256P - x)) % p256P &&
    decide (1 ≤ r) && decide (r < p256N) && decide (1 ≤ s) && decide (s < p256N) && q.z != 0 &&
    q.x * (zi * zi % p256P) % p256P % p256N == r

end Sys2Proof.Machine
end

