-- ==== Sys2Proof/Machine/Image.lean ====
section
/-! DEFINITION. A Tchiesk image in the NOR and the check that it passes before any of it is loaded (R305, R306). -/

namespace Sys2Proof.Machine

/-- Image slot `i`. -/
def imageBase (i : Nat) : Nat := 0x100000 + 0x100000 * i

/-- Word at byte `o` of the image in slot `i`. -/
def imageWord (s : Block) (i o : Nat) : Nat := nvmWord s (imageBase i + o)

/-- A block of `n` bytes at `o` matches CRC word `k` of the image. -/
def blockOk (s : Block) (i k o n : Nat) : Bool :=
  imageWord s i (0x60 + 4 * k) == crc32 (nvmBytes s (imageBase i + o) n)

/-- Every block CRC of the image matches: micro blocks of 256 words of 4 bytes, nano blocks of 256 of 20. -/
def blocksOk (s : Block) (i ml nl : Nat) : Bool :=
  (List.range ((ml + 255) / 256)).all (fun k => blockOk s i k (0x180 + 1024 * k) (4 * min 256 (ml - 256 * k))) &&
    (List.range ((nl + 255) / 256)).all (fun k =>
      blockOk s i (64 + k) (0x180 + 4 * ml + 5120 * k) (20 * min 256 (nl - 256 * k)))

/-- The bytes of the image in slot `i` up to its signature, with `ml` micro-words and `nl` nano-words. -/
def imageSpan (ml nl : Nat) : Nat := 0x180 + 4 * ml + 20 * nl

/-- SHA-256 of the image's public key is the hash in the fuses: digest bytes 4k to 4k + 3 in word k (R306, Table 14-10). -/
def keyOk (s : Block) (i : Nat) : Bool :=
  (sha256 (nvmBytes s (imageBase i + 0x20) 64)).map Word.ofNat == s.nvm.keyHash

/-- The image's signature, which follows its stores, is by its key over every byte before it. -/
def imageSigned (s : Block) (i ml nl : Nat) : Bool :=
  ecdsaOk (nvmBytes s (imageBase i + 0x20) 64) (nvmBytes s (imageBase i + imageSpan ml nl) 64)
    (nvmBytes s (imageBase i) (imageSpan ml nl))

/-- The image in slot `i` is accepted (R306); `rd`: the NOR gives the bytes it holds. A word that it gives otherwise fails a
check, and the image with it (DESIGN CHOICE, log entry 19). -/
def imageOk (s : Block) (i : Nat) (rd : Bool) : Bool :=
  let ml := imageWord s i 0x14
  let nl := imageWord s i 0x18
  rd && imageWord s i 0 == 0x544B4931 && imageWord s i 4 == 1 && (imageWord s i 0x10).testBit 0 &&
    decide (1 ≤ ml) && decide (ml ≤ 16384) && decide (1 ≤ nl) && decide (nl ≤ 2048) &&
    decide (s.nvm.minsvn ≤ imageWord s i 0x0C) && blocksOk s i ml nl && keyOk s i && imageSigned s i ml nl

/-- Block `k` of the control stores (0 to 63 of micro-words, 64 to 71 of nano-words), as the image in slot `i` has it,
matches its CRC (R305). -/
def storeBlockOk (s : Block) (i k : Nat) : Bool :=
  let ml := imageWord s i 0x14
  let nl := imageWord s i 0x18
  if k < 64 then blockOk s i k (0x180 + 1024 * k) (4 * min 256 (ml - 256 * k))
  else blockOk s i k (0x180 + 4 * ml + 5120 * (k - 64)) (20 * min 256 (nl - 256 * (k - 64)))

end Sys2Proof.Machine
end

