-- ==== Sys2Proof/Machine/PatrolRows.lean ====
section
/-! DEFINITION. The happenings PATROL, the die links, the supplies, the NOR and the always-on domain see (R23, R305,
R319, R367 to R370, R377 to R379). -/

namespace Sys2Proof.Machine

/-- The parts outside the always-on domain have power and are out of reset. -/
def awake (s : Block) : Bool := s.boot.powered && !s.boot.held

/-! ## Die links (R23, R314) -/

/-- A bit of RGN_STATE.LINK_LOST. -/
def lostF (i : Nat) : Fld := ⟨F.PATROL_RGN_STATE_LINK_LOST.adr, F.PATROL_RGN_STATE_LINK_LOST.lo + i,
  F.PATROL_RGN_STATE_LINK_LOST.lo + i⟩

/-- Region `i`'s link is healthy from now, and its registers are mirrored again. -/
def linkUpNow (s : Block) (i : Nat) : Block :=
  { s with sys := { s.sys with rgnUp := Tbl.set (fun _ => 0) s.sys.rgnUp i s.now }
           hostIf := { s.hostIf with mirrors := s.hostIf.mirrors.filter (fun x => x.rgn != i) } }

/-- LINK_FRAME (R23): a valid frame on region `i`'s link. It ends a loss; a retransmission that follows no gap is a
PATROL event. -/
def effLinkFrame (i : Nat) (retransmitted : Bool) (s : Block) : Out :=
  withIdx 4 i <|
    if flag s (lostF i) then .next (linkUpNow (setF s (lostF i) 0) i)
    else if retransmitted then .next (settleJobs (recovered (patrolEvent s 3 i)))
    else .next s

/-- LINK_GAP_END (R23): a gap on region `i`'s link ends before 2 µs. -/
def effLinkGapEnd (i : Nat) (s : Block) : Out :=
  withIdx 4 i <|
    if flag s (lostF i) then .next s
    else .next (settleJobs (linkUpNow (recovered (patrolEvent s 3 i)) i))

/-- The words of a table that belong to the units of region `i`. -/
def regionWords (i : Nat) (l : List (Nat × Word)) : List (Nat × Word) :=
  l.filter (fun p => inRegion p.1 && regionOf (blockUnit p.1) == i)

/-- The CDIE keeps the words last mirrored of the units of region `i` (R314). -/
def keepMirror (s : Block) (i : Nat) : Block :=
  let m : LinkMirror := ⟨i, regionWords i s.regs, regionWords i s.act⟩
  { s with hostIf := { s.hostIf with mirrors := m :: s.hostIf.mirrors.filter (fun x => x.rgn != i) } }

/-- The loss of region `i`'s link (R22, R23, R370). Writes on their way to the region are dropped with it. -/
def loseLink (s : Block) (i : Nat) : Block :=
  let s := keepMirror s i
  let fn := (getF s (clsF 3 F.PATROL_CLS0_CFG_ACTION)).testBit 3
  let s := setF s (lostF i) 1
  let s := { s with linkQ := s.linkQ.filter (fun w => w.rgn != i) }
  let s := patrolLog s 0x20 (if fn then 8 else 0) 0 i
  regionSafe (if fn then faultN s 9 else s) i

/-- LINK_LOST (R23): a gap of 2 µs. -/
def effLinkLost (i : Nat) (s : Block) : Out :=
  withIdx 4 i <| .next (if flag s (lostF i) then s else settleJobs (loseLink s i))

/-! ## Supplies -/

/-- SUPPLY_BELOW_THRESHOLD (R367): supply `i` has been below its threshold for 1 µs; it is back above its release level
`lasts` ns from now. A supply that has not come back since its last dip is in that dip still. -/
def effSupplyBelowThreshold (i lasts : Nat) (s : Block) : Out :=
  withIdx 10 i <|
    if supplyLow s i then .next s
    else
      let s := { s with boot := { s.boot with lowTill := Tbl.set (fun _ => 0) s.boot.lowTill i (s.now + lasts) } }
      let s := incF s F.POWER_DIPS_COUNT
      let s := if i = 3 then raise s F.AON_STATUS_VAON_LOW else s
      .next (settleJobs (patrolEvent s 5 i))

/-! ## PATROL's own -/

/-- PATROL_WINDOW_CLOSE (R368): the window of an object that has reached WIN closes. -/
def effPatrolWindowClose (c obj : Nat) (s : Block) : Out :=
  withIdx 9 c <|
    .next (setWindows s c (s.sys.windows.filter (fun w =>
      !(w.cls == c && w.obj == obj && decide (w.opened + w.win ≤ s.now)))))

/-- Where a triplicated register is held: 0 CDIE, 1 ADIE0, 2 ADIE1 (Table 14-7). -/
def tmrLoc (a : Nat) : Nat :=
  if a < 0x20000 || 0x3C000 ≤ a then 0
  else
    let u := if a < 0x30000 then (a - 0x20000) / 0x100
      else if a < 0x38000 then 48 + (a - 0x30000) / 0x100
      else 64 + (a - 0x38000) / 0x100
    1 + dieOf u

/-- The copies with a bit that differs from the majority: register, side and copy. -/
def badCopies (s : Block) : List (Nat × Bool × Nat) :=
  (s.flips.map (fun f => (f.adr, f.shadow, f.copy))).dedup

/-- One copy rewritten with the majority (R319). -/
def scrubCopy (s : Block) (x : Nat × Bool × Nat) : Block :=
  let s := incF s F.GLOBAL_TMR_CORR_COUNT
  let s := setF (setF s F.GLOBAL_TMR_LAST_COPY x.2.2) F.GLOBAL_TMR_LAST_LOC (tmrLoc x.1)
  let s := setF (setB s F.GLOBAL_TMR_LAST_SHADOW x.2.1) F.GLOBAL_TMR_LAST_WADDR (x.1 / 4)
  recovered (patrolEvent (raise s F.GLOBAL_STATUS_TMR_MISMATCH) 7 0)

/-- TMR_SCRUB_PASS (R319): every triplicated field visited; nothing while TMR_SCRUB.EN is 0. -/
def effTmrScrubPass (s : Block) : Out :=
  if !awake s || !flag s F.GLOBAL_TMR_SCRUB_EN then .next s
  else
    let s := forEach (badCopies s) s scrubCopy
    .next (settleJobs (incF { s with flips := [] } F.GLOBAL_TMR_SCRUB_PASSES))

/-- A CAL_RUN ends before its end: the power it holds before the run has begun goes too (R333). -/
def cutRun (s : Block) (j : Job) (status : Nat) : Block := calEnd (dropRunGrants s j) j (some status)

/-- What a command that ends before its end holds is given back: charges, a blackout, a half-made arm. -/
def giveBack (s : Block) (j : Job) : Block :=
  let hd := j.todo.headD 0
  if j.op = Op.dramTrain && hd = 1 then pacRelease (endBlackout s) 6 300
  else if j.op = Op.dramFreq && hd = 1 then
    if pb j.p 1 0 0 = 0 then pacRelease (endBlackout s) 6 250 else endBlackout s
  else if j.op = Op.calCommit && j.due = 1 then setF (pacRelease s 6 100) F.CAL_STATE_PHASE 0
  else if j.op = Op.segCompact && hd = 1 then pacRelease s 6 100
  else if j.op = Op.tableLoad && decide (pb j.p 1 3 0 < 3) then sineLoadEnd s (loadDies (pb j.p 1 3 0))
  else if j.op = Op.seqArm then setF (disarm s (pb j.p 1 3 0)) (qF (pb j.p 1 3 0) F.SEQ_STATE_SSTATE) 0
  else s

/-- One thing that command `j` wrote over put back; a page that another command has taken meanwhile stays with it (log
entry 41). -/
def undoOne (j : Job) (s : Block) (u : Undo) : Block :=
  match u with
  | .word k old =>
    if j.op = Op.stepsWrite then { s with mem := { s.mem with steps := Tbl.set (fun _ => 0) s.mem.steps k old } }
    else putTable s k old
  | .desc id old =>
    let s := { s with mem := { s.mem with freeing := s.mem.freeing.filter (fun i => i != id) } }
    setSeg s id (if j.op = Op.segOpen then { seg s id with st := old.st } else old)
  | .ring id old => setRing s id old
  | .mapped v => unmapPage s v
  | .entry v old =>
    if (pte s v).isNone && (s.mem.free.contains old.ppn || decide (s.mem.bump ≤ old.ppn)) then
      setPte (takePage s old.ppn) v (some { old with move := false })
    else s

/-- A command that ends INTERNAL leaves the device as it found it (R304): what it wrote over is put back, newest first. -/
def undoJob (s : Block) (j : Job) : Block :=
  forEach ((s.mem.undo.filter (fun u => u.1 == j.id)).map (·.2)) s (undoOne j)

/-- A command ends INTERNAL or by ABORT with `status`: its requests and its changes not begun at the NOR go with it; of
a unit command whose grants were not all given, the grants go and the units resume (R297, R301, R304, R305). -/
def cutJob (s : Block) (j : Job) (status : Nat) : Block :=
  if j.op = Op.calRun then cutRun s j status
  else
    let s := if status = Sts.internal then undoJob s j else s
    let j := if j.op = Op.liftSubmit then { j with steps := (lift s (j.todo.headD 0)).done } else j
    let s := { s with nvm := { s.nvm with
      txs := s.nvm.txs.filter (fun x => !(isTxJob x j && x.st != 2 && x.kind != 9)) } }
    let grants := (j.op = Op.unitEnable || j.op = Op.unitRange) && j.todo.headD 0 = 0
    let s := forEach (queuedFor s j) s freeHandleOf
    let s := giveBack (endJob s j status 0) j
    let s := if grants && decide (j.op = Op.unitEnable) then
        forEach (namedUnits j) s (fun s u => schedUnit s u (s.sysTime + 1) .unpause)
      else s
    dropGrants s { j with todo := if grants then j.todo else [] }

/-- The microengine halts (R305). -/
def halt (s : Block) : Block :=
  let s := setF s F.HOSTCMD_STATE_UE_STATE 5
  let s := (s.cmd.jobs.filter (fun j => decide (j.phase = .inProgress))).foldl
    (fun s j => cutJob s j Sts.internal) s
  packageSafe (faultN s 12) 9

/-- `n` corrected words of a store. -/
def storeCorrected (s : Block) (f : Fld) (n : Nat) : Block :=
  forEach (List.range n) s (fun s _ => recovered (patrolEvent (incF s f) 8 0))

/-- An uncorrectable word of block `k` of the control stores (R305): the block is read again from the active slot, `rd` with
the bytes that the NOR holds, and repaired where its CRC matches; else the microengine halts. -/
def storeRepair (s : Block) (k : Nat) (rd : Bool) : Block :=
  if rd && storeBlockOk s (getF s F.HOSTCMD_UE_SLOT_ACTIVE) k then
    recovered (patrolEvent (cmdStatus s F.HOSTCMD_STATUS_MS_UE) 8 0)
  else halt (patrolEvent s 8 0)

/-- CSTORE_SCRUB (R305): a pass over both stores; an uncorrectable word's block is reloaded, or the microengine
halts. -/
def effCstoreScrub (r : StoreScrub) (s : Block) : Out :=
  let u := getF s F.HOSTCMD_STATE_UE_STATE
  if !awake s || !(u == 2 || u == 5) then .next s
  else
    let s := storeCorrected s F.HOSTCMD_UCS_CE_COUNT (min r.ucs 16384)
    let s := storeCorrected s F.HOSTCMD_NCS_CE_COUNT (min r.ncs 2048)
    let s := incF s F.HOSTCMD_MS_SCRUB_PASSES
    match r.ue with
    | none => .next (settleJobs s)
    | some (block, ok) =>
      withIdx 72 block <| .next (settleJobs (if u = 5 then s else storeRepair s block ok))

/-! ## The NOR -/

/-- NVM_DPD_ENTRY (R402): 10 ms idle with DPD_EN. -/
def effNvmDpdEntry (s : Block) : Out :=
  .next (if flag s F.NVM_CTRL_DPD_EN && !flag s F.NVM_STATE_BUSY && decide (s.nvm.idle + 10000000 ≤ s.now) then
    setF s F.NVM_STATE_DPD 1 else s)

/-- NVM_OPERATION_END (R400): the operation in progress ends, done or failed; nothing where none is. -/
def effNvmOperationEnd (ok : Bool) (s : Block) : Out :=
  .next (if flag s F.NVM_STATE_BUSY then settleJobs (nvmOpEnd s ok) else s)

/-! ## The always-on domain (R377 to R379) -/

/-- A field of comparator `k`. -/
def cmpF (k : Nat) (f : Fld) : Fld := f.at (8 * k)

/-- Bit `k` of a field of CMP_STATE. -/
def cmpBit (f : Fld) (k : Nat) : Fld := ⟨f.adr, f.lo + k, f.lo + k⟩

/-- After its W1C bits are written, and after a reset: a comparator still in alarm and a halt that persists set their
bits of FAULTN again (R370). -/
def faultnWritten (s : Block) : Block :=
  let cmp := (List.range 8).any (fun k =>
    s.aon.on && flag s (cmpBit F.AON_CMP_STATE_LEVEL k) && flag s (cmpF k F.AON_CMP0_CFG_FAULTN))
  let s := if cmp then setF s ⟨R.PATROL_FAULTN, 10, 10⟩ 1 else s
  let s := if getF s F.HOSTCMD_STATE_UE_STATE = 5 then setF s ⟨R.PATROL_FAULTN, 12, 12⟩ 1 else s
  syncFaultN s

/-- The limits of comparator `k` in mV: LO and HI (R378). -/
def cmpLimits (s : Block) (k : Nat) : Int × Int :=
  (5 * signed 12 (getF s (cmpF k F.AON_CMP0_THR_LO)), 5 * signed 12 (getF s (cmpF k F.AON_CMP0_THR_HI)))

/-- A sample of `v` mV lies where comparator `k` is in alarm: outside [LO, HI], or inside it in MODE 0b01. -/
def cmpBeyond (s : Block) (k : Nat) (v : Int) : Bool :=
  let l := cmpLimits s k
  let inside := decide (l.1 ≤ v) && decide (v ≤ l.2)
  if getF s (cmpF k F.AON_CMP0_CFG_MODE) = 1 then inside else !inside

/-- A sample lies back beyond the window edge by HYST × 5 mV. -/
def cmpBack (s : Block) (k : Nat) (v : Int) : Bool :=
  let l := cmpLimits s k
  let h : Int := 5 * (getF s (cmpF k F.AON_CMP0_CFG_HYST) : Int)
  if getF s (cmpF k F.AON_CMP0_CFG_MODE) = 1 then decide (v < l.1 - h) || decide (l.2 + h < v)
  else decide (l.1 + h ≤ v) && decide (v ≤ l.2 - h)

/-- The last FILT + 1 of the samples `mv` of comparator `k`, latest first, all lie as `ok` says. -/
def cmpRun (s : Block) (k : Nat) (mv : List Int) (ok : Int → Bool) : Bool :=
  let n := getF s (cmpF k F.AON_CMP0_CFG_FILT) + 1
  decide (n ≤ mv.length) && (mv.take n).all ok

/-- COMPARATOR_ALARM (R378): the onset of comparator `k`'s alarm, once its last FILT + 1 samples `mv` (mV, as it senses
them, latest first) lie beyond its window. -/
def effComparatorAlarm (k : Nat) (mv : List Int) (s : Block) : Out :=
  withIdx 8 k <|
    if !s.aon.on || !flag s (cmpF k F.AON_CMP0_CFG_EN) || flag s (cmpBit F.AON_CMP_STATE_LEVEL k) ||
        !cmpRun s k mv (cmpBeyond s k) then .next s
    else
      let s := raise (setF s (cmpBit F.AON_CMP_STATE_LEVEL k) 1) (cmpBit F.AON_CMP_STATE_LATCH k)
      let s := raise s F.AON_STATUS_CMP
      let s := if flag s (cmpF k F.AON_CMP0_CFG_FAULTN) then faultN s 10 else s
      if !awake s || modeOf s = 5 then .next s
      else
        let s := syncLevels (fire (patrolLog s 0x27 0 0 k) (128 + k) 0 s.sysTime)
        .next (settleJobs (if flag s (cmpF k F.AON_CMP0_CFG_SAFE) then packageSafe s 11 else s))

/-- COMPARATOR_CLEAR (R378): comparator `k` leaves alarm, once its last FILT + 1 samples lie back beyond the edge by the
hysteresis. -/
def effComparatorClear (k : Nat) (mv : List Int) (s : Block) : Out :=
  withIdx 8 k <|
    if !flag s (cmpBit F.AON_CMP_STATE_LEVEL k) || !cmpRun s k mv (cmpBack s k) then .next s
    else
      let s := setF s (cmpBit F.AON_CMP_STATE_LEVEL k) 0
      .next (if awake s then syncLevels s else s)

/-- The seconds of ALARM. -/
def alarmSec (s : Block) : Nat := get64 s F.AON_ALARM_LO_SEC F.AON_ALARM_HI_SEC

/-- RTC_ALARM (R377): the seconds equal ALARM. -/
def effRtcAlarm (s : Block) : Out :=
  .next (if s.aon.on && flag s F.AON_CTRL_ALARM_EN && rtcSec s == alarmSec s then raise s F.AON_STATUS_ALARM else s)

/-- The watchdog counts its full period from now, where it runs: enabled, outside BOOT and SLEEP (R379). -/
def wdogStart (s : Block) : Block :=
  let m := modeOf s
  let p := max 1 (getF s F.AON_WDOG_CFG_PERIOD) * 1000000
  { s with aon := { s.aon with
    wdogAt := if flag s F.AON_WDOG_CFG_EN && m != 0 && m != 5 then s.now + p + 1 else 0 } }

/-- RTC_LOAD (R377): at the second boundary after RTC_SET the load register becomes the count. -/
def effRtcLoad (s : Block) : Out :=
  let a := s.aon
  if a.setIn = 0 || rtcSec s + 1 = a.setIn then .next s
  else .next (set64 { s with aon := { a with setIn := 0 } } F.AON_RTC_LO_SEC F.AON_RTC_HI_SEC a.load)

/-- VAON_APPLY (R376): VAON is first applied; the AON registers take their Reset values. -/
def effVaonApply (s : Block) : Out :=
  if s.aon.on then .next s
  else
    let s := { s with regs := s.regs.filter (fun x => !(decide (0x8000 ≤ x.1) && decide (x.1 < 0x9000))) }
    let s := setF s F.CLOCK_X32_STAT_RUN 1
    .next (syncFaultN { s with aon := { on := true } })

/-- VAON_LOSS (R396, R422): the always-on domain is reset, its oscillator stops and FAULT_N is released; a device in SLEEP
is then off. -/
def effVaonLoss (s : Block) : Out :=
  let s := { s with regs := s.regs.filter (fun x => !(decide (0x8000 ≤ x.1) && decide (x.1 < 0x9000))) }
  let s := syncFaultN (setF { s with aon := {} } F.CLOCK_X32_STAT_RUN 0)
  let s := if s.boot.powered then s else setF s F.GLOBAL_MODE_CUR 0
  .next (if awake s then syncLevels s else s)

/-! ## The meanings -/

/-- LINK_FRAME (R23), done to the block; the queue stays. -/
def execLinkFrame (i : Nat) (retransmitted : Bool) (s : State) : Host.Outcome State Fault Refusal :=
  onBlock s (effLinkFrame i retransmitted)

/-- LINK_GAP_END (R23), done to the block; the queue stays. -/
def execLinkGapEnd (i : Nat) (s : State) : Host.Outcome State Fault Refusal :=
  onBlock s (effLinkGapEnd i)

/-- LINK_LOST (R23), done to the block; the queue stays. -/
def execLinkLost (i : Nat) (s : State) : Host.Outcome State Fault Refusal :=
  onBlock s (effLinkLost i)

/-- SUPPLY_BELOW_THRESHOLD (R367), done to the block; the queue stays. -/
def execSupplyBelowThreshold (d : Dip) (s : State) : Host.Outcome State Fault Refusal :=
  onBlock s (effSupplyBelowThreshold d.rail d.lasts)

/-- PATROL_WINDOW_CLOSE (R368), done to the block; the queue stays. -/
def execPatrolWindowClose (c obj : Nat) (s : State) : Host.Outcome State Fault Refusal :=
  onBlock s (effPatrolWindowClose c obj)

/-- TMR_SCRUB_PASS (R319), done to the block; the queue stays. -/
def execTmrScrubPass (s : State) : Host.Outcome State Fault Refusal :=
  onBlock s (effTmrScrubPass)

/-- CSTORE_SCRUB (R305), done to the block; the queue stays. -/
def execCstoreScrub (r : StoreScrub) (s : State) : Host.Outcome State Fault Refusal :=
  onBlock s (effCstoreScrub r)

/-- NVM_DPD_ENTRY (R402), done to the block; the queue stays. -/
def execNvmDpdEntry (s : State) : Host.Outcome State Fault Refusal :=
  onBlock s (effNvmDpdEntry)

/-- NVM_OPERATION_END (R400), done to the block; the queue stays. -/
def execNvmOperationEnd (ok : Bool) (s : State) : Host.Outcome State Fault Refusal :=
  onBlock s (effNvmOperationEnd ok)

/-- COMPARATOR_ALARM (R378), done to the block; the queue stays. -/
def execComparatorAlarm (m : CmpSamples) (s : State) : Host.Outcome State Fault Refusal :=
  onBlock s (effComparatorAlarm m.k m.mv)

/-- COMPARATOR_CLEAR (R378), done to the block; the queue stays. -/
def execComparatorClear (m : CmpSamples) (s : State) : Host.Outcome State Fault Refusal :=
  onBlock s (effComparatorClear m.k m.mv)

/-- RTC_ALARM (R377), done to the block; the queue stays. -/
def execRtcAlarm (s : State) : Host.Outcome State Fault Refusal :=
  onBlock s (effRtcAlarm)

/-- RTC_LOAD (R377), done to the block; the queue stays. -/
def execRtcLoad (s : State) : Host.Outcome State Fault Refusal :=
  onBlock s (effRtcLoad)

/-- VAON_APPLY (R376), done to the block; the queue stays. -/
def execVaonApply (s : State) : Host.Outcome State Fault Refusal :=
  onBlock s (effVaonApply)

/-- VAON_LOSS (R396), done to the block; the queue stays. -/
def execVaonLoss (s : State) : Host.Outcome State Fault Refusal :=
  onBlock s (effVaonLoss)

end Sys2Proof.Machine
end

