-- ==== Sys2Proof/Machine/Boot.lean ====
section
/-! DEFINITION. Resets, supplies and start-up (R306, R307, R374, R375, R389 to R396). A start-up is one step: what the
world outside then shows stands in `BootEnv`. -/

namespace Sys2Proof.Machine

/-! ## Images (R307) -/

/-- Slot `i` checked: its VALID bit and its VERSION (Table 17-9). -/
def noteCheck (s : Block) (i : Nat) (ok : Bool) : Block :=
  let s := setB s (if i = 0 then F.NVM_BOOT_A_VALID else F.NVM_BOOT_B_VALID) ok
  let s := setF s ⟨R.NVM_SLOTA_VER + 4 * i, 31, 0⟩ (if ok then imageWord s i 8 else 0)
  if ok then s else raise s F.NVM_STATUS_IMAGE_BAD

/-- The registers that show the image in slot `i` as the one that runs. -/
def showImage (s : Block) (i : Nat) : Block :=
  let s := setF s F.HOSTCMD_UE_VER_VERSION (imageWord s i 8)
  let s := setF (setF s F.HOSTCMD_UE_SLOT_SVN (imageWord s i 0x0C)) F.HOSTCMD_UE_SLOT_ACTIVE i
  setF s F.HOSTCMD_UE_SLOT_MINSVN s.nvm.minsvn

/-! ## Reset (R395, R396) -/

/-- A register that keeps its word through RST_N: the AON block (R376), the count of wrong keys since power-on, and
whether the 32.768 kHz oscillator runs. -/
def keptReg (a : Nat) : Bool :=
  (decide (0x8000 ≤ a) && decide (a < 0x9000)) || a == R.GLOBAL_KEYFAIL || a == R.CLOCK_X32_STAT

/-- Everything outside the always-on domain reset: time, the NOR, the always-on domain, host memory and the level of
SAFE_N stay. FAULT_N is low as in BOOT. -/
def resetCore (s : Block) : Block :=
  let c : CmdSt := { hostMem := s.cmd.hostMem }
  let t := { Block.reset with
    now := s.now, free := s.free, regs := s.regs.filter (fun x => keptReg x.1), cmd := c,
    nvm := { bytes := s.nvm.bytes, idle := s.now, minsvn := s.nvm.minsvn },
    boot := { safeLow := s.boot.safeLow, tap := s.boot.tap, lowTill := s.boot.lowTill }, aon := s.aon
    clock := { untrAt := s.now + 1 } }
  syncFaultN (setB t F.GLOBAL_PINS_SAFE s.boot.safeLow)

/-- Reset held: `cause` is the bit of RESET_CAUSE that the next start-up shows. -/
def holdReset (s : Block) (cause : Nat) : Block :=
  let t := resetCore s
  { t with boot := { t.boot with powered := s.boot.powered, held := true, cause := cause } }

/-- Power lost outside the always-on domain. -/
def powerOff (s : Block) : Block :=
  let t := resetCore s
  { t with regs := t.regs.filter (fun x => x.1 != R.GLOBAL_KEYFAIL), boot := { t.boot with held := s.boot.held, tap := .idcode } }

/-! ## Start-up, step 4: links, clocks (R389, R393) -/

/-- Sample loops locked to the crystal, SYSTIME started, the latencies of ungrouped units and clusters, the levels of
the pins. -/
def startClocks (s : Block) : Block :=
  let s := setLoop (setLoops { s with sysTime := 0 } 2) 3 2
  let s := setF s F.CLOCK_STATE_EXPORT 1
  let s := syncLatencies (syncClock s)
  let s := forEach (List.range 32) s (fun s n => setF s (aF n F.A_DELAY_NS) (sampleDelay s n))
  syncLevels s

/-- A die link trained, or lost. -/
def startLink (b : BootEnv) (s : Block) (i : Nat) : Block :=
  if b.linkOk.getD i false then linkUpNow s i else loseLink s i

/-! ## Start-up, step 5: the NVM load (R80, R83, R111, R155, R171, R341, R392) -/

/-- The fields of a unit that reset to what its record holds: the rest range, the NVM slope and, on a D unit,
the NVM jerk (Tables 02-12, 02-16 and 02-28). -/
def resetFromRec (s : Block) (u : Nat) : Block :=
  let s := setF s (uF u F.P_RANGE_SEL) (getF s (strF u F.STR_SCFG_RRANGE))
  let s := setF s (uF u F.P_SLEW_EXP) (getF s (strF u F.STR_RAMP_NV_EXP))
  let s := setF s (uF u F.P_SLEW_MANT) (getF s (strF u F.STR_RAMP_NV_MANT))
  if u < 48 then s
  else
    let s := setF s (uF u F.D_JERK_EXP) (getF s (strF u F.STR_JRAMP_NJ_EXP))
    setF s (uF u F.D_JERK_MANT) (getF s (strF u F.STR_JRAMP_NJ_MANT))

/-- Unit `u`'s record (R80, R392): with a valid one its ramp begins at the next boundary. -/
def startUnit (s : Block) (u : Nat) : Block :=
  match unitRec s u with
  | some l =>
    if unitRecOk u l then
      let s := resetFromRec (mirrorUnitRec s u l) u
      if (getF s F.PATROL_RGN_STATE_SAFE).testBit (regionOf u) then s
      else schedUnit s u (s.sysTime + 1) (if s.boot.safeLow then .newFault else .newRest)
    else badRec s u
  | none => badRec s u
where
  /-- The unit stays in PARK. -/
  badRec (s : Block) (u : Nat) : Block :=
    let s := raise s (uF u F.P_STATUS_NVM_REST_BAD)
    raise s (if u < 32 then ⟨R.NVM_UREC_BAD_LO, u, u⟩ else ⟨R.NVM_UREC_BAD_HI, u - 32, u - 32⟩)

/-- Lane cluster `c`: its supply and its record (R171, R172). -/
def startLane (b : BootEnv) (s : Block) (c : Nat) : Block :=
  let ok := b.vioOk.getD c false
  let s := setB (setLane s c { lane s c with vioOff := !ok }) (lF c F.LC_STATE_VIO_OK) ok
  let s := if ok then s else raise s (lF c F.LC_STATUS_VIO_LOW)
  match laneRec s c with
  | some l => if laneRecOk c l then commitLaneRec s c l false else badLane s c
  | none => badLane s c
where
  /-- The cluster stays in PARK. -/
  badLane (s : Block) (c : Nat) : Block :=
    raise (raise s (lF c F.LC_STATUS_NVM_LANE_BAD)) ⟨R.NVM_LREC_BAD, c, c⟩

/-- The factory sine table as the words of a bank from `a` (log entry 24). -/
def sineWords (s : Block) (a : Nat) : List (Nat × Word) :=
  (List.range 16384).filterMap (fun i =>
    let w := Word.ofNat (unsigned 32 (signed 24 (nvmWord s (0x520000 + 4 * i))))
    if w = 0 then none else some (a + 4 * i, w))

/-- The factory sine table in both banks of both dies, with their CRCs (R155, R164). -/
def loadSine (s : Block) : Block :=
  let low := s.tables.filter (fun x => decide (x.1 < 0x100000))
  let s := { s with tables := low ++ [0, 1, 2, 3].flatMap (fun k => sineWords s (sineAddr (k / 2) (k % 2) 0)) }
  forEach [0, 1] s (fun s d => setF (setF s (dieF d F.SYN_TBL_CRC_A_CRC) (bankCrc s d 0)) (dieF d F.SYN_TBL_CRC_B_CRC)
    (bankCrc s d 1))

/-- Page `p` withheld from the pool. -/
def withhold (s : Block) (p : Nat) : Block :=
  if pageFree s p then
    let s := takePage s p
    { s with mem := { s.mem with retired := s.mem.retired ++ [p] } }
  else s

/-- The retired-page map in force (R111). -/
def loadRetired (s : Block) : Block :=
  match copyInForce s 7 with
  | none => s
  | some b =>
    let l := ((List.range 1024).map (fun i => nvmWord s (b + 8 + 4 * i))).filter (· != 0xFFFFFFFF)
    setF (forEach l s withhold) F.NVM_RETIRED_MAP_PAGES l.length

/-- The masks of the device record at `b`. -/
def recordMasks (s : Block) (b : Nat) : List Nat :=
  (List.range 6).map (fun i => (nvmWord s (b + 8 + 8 * i) + nvmWord s (b + 12 + 8 * i) * 2 ^ 32) % 2 ^ 34)

/-- The device record in force (R260, R397): masks, TIM values, REFIN_TRIM. -/
def loadDevice (s : Block) : Block :=
  match copyInForce s 6 with
  | none => syncBankmap s
  | some b =>
    let l := recordMasks s b
    let s := if l.zipIdx.all (fun x => maskOk x.2 x.1) then
        let s := forEach l.zipIdx s (fun s x =>
          putM (putM s (R.DRAMC_BANKMAP0_LO + 8 * x.2) 0xFFFFFFFF x.1) (R.DRAMC_BANKMAP0_HI + 8 * x.2) 3 (x.1 >>> 32))
        putMasks s l
      else syncBankmap s
    let s := forEach (List.range 8) s (fun s i =>
      putM s (R.DRAMC_FSP0_TIM0 + 4 * i) 0xFFFFFFFF (nvmWord s (b + 56 + 4 * i)))
    setF s F.CLOCK_REFIN_TRIM_PS (nvmWord s (b + 88))

/-! ## Audit recovery (R345, R346) -/

/-- The valid audit records: their words 4, 5 and 7 and their SEQ. -/
def auditList (s : Block) : List (Nat × Nat × Nat × Nat) :=
  let ks := ((s.nvm.bytes.filter (fun x => decide (0x800000 ≤ x.1) && decide (x.1 < 0xC00000))).map
    (fun x => x.1 / 64 * 64)).dedup
  (ks.filter (fun a => nvmWord s (a + 60) == crc32 (nvmBytes s a 60))).map (fun a =>
    (nvmWord s (a + 16), nvmWord s (a + 20), nvmWord s (a + 28), nvmWord s a + nvmWord s (a + 4) * 2 ^ 32))

/-- The newest valid record of every audited object: KIND of its changes, KIND of its recovery, OBJECT, CRC, and for
calibration its SEQ, REF_ID, RES_ID, REFV and RESV. -/
def auditObjects (s : Block) : List (Nat × Nat × Nat × Nat × List Nat) :=
  let wide := fun a => nvmWord s a + nvmWord s (a + 4) * 2 ^ 32
  let cals := (List.range 96).filterMap (fun u =>
    if Tbl.get (fun _ => 0) s.cal.src u != 0 then none
    else
      let a := slotAddr u (calBank s u)
      if slotValid s u a then
        some (1, 7, u, nvmWord s (a + 0xFFC), [nvmWord s a, nvmWord s (a + 0x20), nvmWord s (a + 0x24),
          wide (a + 0x10), wide (a + 0x18)])
      else none)
  let us := (List.range 64).filterMap (fun u => match unitRec s u with
    | some l => if unitRecOk u l then some (2, 2, u, recWord l 7, []) else none
    | none => none)
  let lcs := (List.range 8).filterMap (fun c => match laneRec s c with
    | some l => if laneRecOk c l then some (3, 3, c, recWord l 8, []) else none
    | none => none)
  let maps := match copyInForce s 6 with
    | some b => [(6, 6, 0, crc32 (nvmBytes s (b + 8) 48), [])]
    | none => []
  cals ++ us ++ lcs ++ maps

/-- An audit record queued for an object that has none. -/
def recoverAudit (l : List (Nat × Nat × Nat × Nat)) (s : Block) (o : Nat × Nat × Nat × Nat × List Nat) : Block :=
  let kinds := [o.1, o.2.1]
  if l.any (fun r => kinds.contains (r.1 % 256) && r.2.1 == o.2.2.1 && r.2.2.1 == o.2.2.2.1) then s
  else
    let g := fun i => o.2.2.2.2.getD i 0
    let info := [o.2.1, 2, 0, o.2.2.1, 0, o.2.2.2.1, g 0, g 1, g 2, g 3, g 4]
    raise (nvmQueue s ⟨9, o.2.2.1, 2, 4, 0, info, [], 0, []⟩) F.CAL_STATUS_AUDIT_RECOVERED

/-- The audit log as found. -/
def countAudit (s : Block) : Block :=
  let l := auditList s
  let s := set64 s F.CAL_AUDIT_SEQ_LO_SEQ F.CAL_AUDIT_SEQ_HI_SEQ (l.foldl (fun m r => max m r.2.2.2) 0 + 1)
  setF s F.CAL_AUDIT_STAT_STORED l.length

/-- The records that the log lacks. -/
def loadAudit (s : Block) : Block := forEach (auditObjects s) s (recoverAudit (auditList s))

/-- Step 5 as a whole, with the safety charges held from start-up (Table 16-4). -/
def loadNvm (b : BootEnv) (s : Block) : Block :=
  let s := forEach (List.range 4) s (fun s i => pacCharge s i 120 true)
  let s := pacCharge (pacCharge s 6 5200 true) 7 2000 true
  let s := forEach (List.range 96) s loadCal
  let s := loadDevice (loadRetired (loadSine s))
  let s := if (copyInForce s 1).isNone then raise s F.NVM_STATUS_TABLE_BAD else s
  let s := setF s F.NVM_TBL_SEQ_SEQ (tableSeq s)
  let s := forEach (List.range 64) s startUnit
  loadAudit (forEach (List.range 8) s (startLane b))

/-! ## Start-up, steps 6 and 7 -/

/-- DRAM trained at FSP0, then at FSP1, in the safety class (R275, R277). -/
def trainBoth (b : BootEnv) (s : Block) : Block :=
  let s := pacCharge s 6 300 true
  let s := trainFsps (setFsp s 0) (some b.train0) (some b.train1)
  let s := if getF s F.DRAMC_STATE_DSTATE = 5 then s else setF s F.DRAMC_STATE_DSTATE 2
  pacUncharge s 6 300 true

/-- Mode STANDBY, or SAFE where SAFE_N is low or the stack unusable (R392, R393). -/
def enterStandby (b : BootEnv) (s : Block) : Block :=
  let s := { s with sys := { s.sys with cdie := 1 } }
  let s := setF s F.GLOBAL_MODE_CUR 1
  let s := forEach (List.range 64) s (fun s u => setUnit s u { unit s u with mode := 1 })
  let s := forEach (List.range 8) s (fun s c => setLane s c { lane s c with mode := 1 })
  let s := setF (setF s F.NVM_STARTUP_TIME b.duration) F.NVM_STARTUP_STEP 7
  let s := setF s F.NVM_STARTUP_FAIL 0
  let s := wdogStart (syncFaultN s)
  if s.boot.safeLow then packageSafe s 3
  else if getF s F.DRAMC_STATE_DSTATE = 5 then packageSafe s 6
  else s

/-- The start-up from step 4 on, with the image of slot `i`. -/
def runImage (b : BootEnv) (i : Nat) (s : Block) : Block :=
  let s := showImage { s with boot := { s.boot with env := none } } i
  let s := startClocks (setF s F.HOSTCMD_STATE_UE_STATE 2)
  let s := forEach (List.range 4) s (startLink b)
  settleJobs (enterStandby b (trainBoth b (loadNvm b s)))

/-- The start-up stops after `step` steps, failed at the next. -/
def stopAt (s : Block) (b : BootEnv) (step ue : Nat) : Block :=
  let s := setF (setF s F.NVM_STARTUP_TIME b.duration) F.NVM_STARTUP_STEP step
  setF (setF s F.NVM_STARTUP_FAIL (step + 1)) F.HOSTCMD_STATE_UE_STATE ue

/-- The boot record (R398): the preferred slot, A where neither copy is valid; and a copy left incomplete. -/
def bootRecord (s : Block) : Block :=
  let half := fun k =>
    let a := copyArea k
    let ok := fun x => copyValid s x a.2
    let used := fun x => nvmUsed s x a.2
    ok a.1 != ok (a.1 + a.2) && used a.1 && used (a.1 + a.2)
  let s := if [5, 6, 1, 7].any half then raise s F.NVM_STATUS_INTERRUPTED else s
  match copyInForce s 5 with
  | none => raise s F.NVM_BOOT_BOOT_REC_BAD
  | some a =>
    let p := nvmWord s (a + 8) % 2
    setF (setF s F.NVM_BOOT_PREF p) F.HOSTCMD_UE_SLOT_PREF p

/-- Step 3: the preferred slot, or else the other (R307). -/
def chooseImage (b : BootEnv) (s : Block) : Block :=
  let rd := fun i => if i = 0 then b.readA else b.readB
  let p := getF s F.NVM_BOOT_PREF
  let okP := imageOk s p (rd p)
  let s := noteCheck s p okP
  if okP then runImage b p s
  else
    let o := 1 - p
    let okO := imageOk s o (rd o)
    let s := noteCheck s o okO
    if okO then runImage b o (raise (raise s F.HOSTCMD_UE_SLOT_FELL_BACK) F.NVM_BOOT_FELL_BACK)
    else stopAt { s with boot := { s.boot with env := some b } } b 2 4

/-- A TAP instruction that acts only while RST_N is low (R388). -/
def tapGuarded (i : TapInstr) : Bool := i == .extest || i == .clamp || i == .highz

/-- A start-up (Table 17-3) whose cause is bit `cause` of RESET_CAUSE. -/
def bootUp (s : Block) (b : BootEnv) (cause : Nat) : Block :=
  let s := resetCore s
  let s := faultnWritten (if s.aon.on then s else setF { s with aon := { on := true } } F.CLOCK_X32_STAT_RUN 1)
  let tap := if tapGuarded s.boot.tap then .bypass else s.boot.tap
  let s := { s with boot := { s.boot with powered := true, spiReady := true, tap := tap } }
  let s := setF s ⟨R.GLOBAL_RESET_CAUSE, cause, cause⟩ 1
  let s := setF s F.HOSTCMD_UE_SLOT_MINSVN s.nvm.minsvn
  if !b.crystalOk then
    let s := setClock (raise s F.CLOCK_STATUS_XTAL_FAIL) { s.clock with xtalLost := true }
    stopAt s b 1 0
  else
    let s := setLoop s 0 2
    if !b.nvmOk then stopAt { s with boot := { s.boot with env := some b } } b 2 4
    else chooseImage b (bootRecord (countAudit s))

/-- SUPPLY_VALID (R389): power-on reset is released with RST_N high. -/
def effSupplyValid (b : BootEnv) (s : Block) : Out :=
  .next (if s.boot.powered || s.boot.held || modeOf s = 5 then s else bootUp s b 0)

/-- RST_N_ASSERT (R395): RST_N is accepted low; in SLEEP it wakes the device (R375). -/
def effRstNAssert (s : Block) : Out :=
  .next <|
    if s.boot.held then s
    else if modeOf s = 5 then
      let t := holdReset (setF (setF s F.AON_WAKE_CAUSE_SRC 1) F.AON_WAKE_CAUSE_CMP 0) 3
      { t with boot := { t.boot with powered := true } }
    else holdReset s 1

/-- RST_N_RELEASE (R395): on release the start-up runs from step 2, or after a power loss waits for the supplies. -/
def effRstNRelease (b : BootEnv) (s : Block) : Out :=
  .next <|
    if !s.boot.held then s
    else if s.boot.powered then bootUp s b s.boot.cause
    else { s with boot := { s.boot with held := false } }

/-- SUPPLY_DIP (R396): VCORE, AVDD5, AVPOS or AVNEG below 90 % for 2 µs. The other rails have no such effect. -/
def effSupplyDip (rail : Nat) (s : Block) : Out :=
  withIdx 10 rail <|
    .next (if s.boot.powered && [0, 4, 5, 6].contains rail then powerOff s else s)

/-- WAKE (R375): a source that may wake the device from SLEEP does so. -/
def effWake (src : WakeSource) (b : BootEnv) (s : Block) : Out :=
  let go := fun (srcs k : Nat) =>
    bootUp (setF (setF s F.AON_WAKE_CAUSE_SRC srcs) F.AON_WAKE_CAUSE_CMP k) b 3
  if modeOf s != 5 || s.boot.held then .next s
  else
    match src with
    | .rstN => .next (go 1 0)
    | .rtcAlarm => .next (if flag s F.AON_CTRL_ALARM_WAKE && flag s F.AON_STATUS_ALARM then go 2 0 else s)
    | .comparator k =>
      withIdx 8 k <| .next (if flag s (cmpF k F.AON_CMP0_CFG_EN) && flag s (cmpF k F.AON_CMP0_CFG_WAKE) &&
        flag s (cmpBit F.AON_CMP_STATE_LEVEL k) then go 4 k else s)

/-- SLEEP_POWER_DOWN (R370, R374): 10 ms after the completion of MODE_SET power is removed; the mode stays SLEEP and
FAULT_N keeps its level. -/
def effSleepPowerDown (s : Block) : Out :=
  .next <|
    if s.boot.offAt = 0 || decide (s.now + 1 < s.boot.offAt) then s
    else
      let low := flag s F.PATROL_FAULTN_PIN
      let t := setF (incF (powerOff s) F.AON_SLEEP_COUNT_COUNT) F.GLOBAL_MODE_CUR 5
      setB (setB t F.PATROL_FAULTN_PIN low) F.GLOBAL_PINS_FAULT low

/-- WATCHDOG_EXPIRY (R379): the watchdog's period has passed without a kick. -/
def effWatchdogExpiry (s : Block) : Out :=
  if s.aon.wdogAt = 0 || decide (s.now + 1 < s.aon.wdogAt) || modeOf s = 0 || modeOf s = 5 then .next s
  else
    let s := patrolLog (faultN (raise s F.AON_STATUS_WDOG_EXP) 11) 0x26 0 0 0
    .next <|
      if flag s F.AON_WDOG_CFG_ACTION then holdReset { s with aon := { s.aon with wdogAt := 0 } } 2
      else settleJobs (packageSafe (wdogStart s) 10)

/-! ## Links to the host (R384 to R388) -/

/-- The byte of an SPI STATUS transaction (Table 17-2). -/
def spiByte (s : Block) : Nat :=
  b2n s.boot.spiReady + b2n s.boot.spiErr * 2 + b2n (modeOf s == 0) * 4 + b2n (flag s F.PATROL_FAULTN_PIN) * 8

/-- SPI_STATUS (Table 17-2): the byte is returned and ERR cleared. -/
def effSpiStatus (s : Block) : Out :=
  .next { s with hostIf := { s.hostIf with readS := Word.ofNat (spiByte s) }
                 boot := { s.boot with spiErr := false } }

/-- PCIE_LINK_UP: registers are accessible over PCIe (R390). -/
def effPcieLinkUp (s : Block) : Out :=
  .next (if awake s && s.boot.spiReady then { s with boot := { s.boot with pcieUp := true } } else s)

/-- PCIE_RESET (R385): the ring registers and the MSI-X table at reset values, every LIFT descriptor ABORTED and not
written back, every completion not yet written discarded. Every kind leaves the link to come up again. -/
def effPcieReset (k : PcieResetKind) (s : Block) : Out :=
  let ring := fun a => decide (0x1040 ≤ a) && decide (a < 0x10E0)
  let jobs := s.cmd.jobs.map (fun j => { j with mute := true })
  let c := { s.cmd with jobs := jobs, held := [], msix := [], phase := true }
  let s := { s with regs := s.regs.filter (fun x => !ring x.1), cmd := c }
  let s := setF s F.HOSTCMD_STATE_CPL_HELD 0
  let s := forEach (List.range 8) s (fun s c => if (lift s c).st = 0 then s else liftEnd s c Sts.aborted true)
  .next (match k with
    | .flr => s
    | _ => { s with boot := { s.boot with pcieUp := false } })

/-- TAP_INSTRUCTION (R388): EXTEST, CLAMP and HIGHZ take effect only while RST_N is low, else they act as BYPASS. -/
def effTapInstruction (i : TapInstr) (s : Block) : Out :=
  .next { s with boot := { s.boot with tap := if tapGuarded i && !s.boot.held then .bypass else i } }

/-! ## The meanings -/

/-- SUPPLY_VALID (R389), done to the block; the queue stays. -/
def execSupplyValid (b : BootEnv) (s : State) : Host.Outcome State Fault Refusal :=
  onBlock s (effSupplyValid b)

/-- RST_N_ASSERT (R395), done to the block; the queue stays. -/
def execRstNAssert (s : State) : Host.Outcome State Fault Refusal :=
  onBlock s (effRstNAssert)

/-- RST_N_RELEASE (R395), done to the block; the queue stays. -/
def execRstNRelease (b : BootEnv) (s : State) : Host.Outcome State Fault Refusal :=
  onBlock s (effRstNRelease b)

/-- SUPPLY_DIP (R396), done to the block; the queue stays. -/
def execSupplyDip (rail : Nat) (s : State) : Host.Outcome State Fault Refusal :=
  onBlock s (effSupplyDip rail)

/-- WAKE (R375), done to the block; the queue stays. -/
def execWake (src : WakeSource) (b : BootEnv) (s : State) : Host.Outcome State Fault Refusal :=
  onBlock s (effWake src b)

/-- SLEEP_POWER_DOWN (R374), done to the block; the queue stays. -/
def execSleepPowerDown (s : State) : Host.Outcome State Fault Refusal :=
  onBlock s (effSleepPowerDown)

/-- WATCHDOG_EXPIRY (R379), done to the block; the queue stays. -/
def execWatchdogExpiry (s : State) : Host.Outcome State Fault Refusal :=
  onBlock s (effWatchdogExpiry)

/-- SPI_STATUS (Table 17-2), done to the block; the queue stays. -/
def execSpiStatus (s : State) : Host.Outcome State Fault Refusal :=
  onBlock s (effSpiStatus)

/-- PCIE_LINK_UP, done to the block; the queue stays. -/
def execPcieLinkUp (s : State) : Host.Outcome State Fault Refusal :=
  onBlock s (effPcieLinkUp)

/-- PCIE_RESET (R385), done to the block; the queue stays. -/
def execPcieReset (k : PcieResetKind) (s : State) : Host.Outcome State Fault Refusal :=
  onBlock s (effPcieReset k)

/-- TAP_INSTRUCTION (R388), done to the block; the queue stays. -/
def execTapInstruction (i : TapInstr) (s : State) : Host.Outcome State Fault Refusal :=
  onBlock s (effTapInstruction i)

end Sys2Proof.Machine
end

