-- ==== Sys2Proof/Machine/Gyden.lean ====
section
/-! DEFINITION. The Gyden bus (R224 to R235) and a mode change across nodes (R34, R355). -/

namespace Sys2Proof.Machine

/-- The bus state changed. -/
def setGyden (s : Block) (g : GydenSt) : Block := { s with gyden := g }

/-- This node's number. -/
def ownNode (s : Block) : Nat := getF s F.GYDEN_CONFIG_NODE

/-- The link state: 0 off, 1 joining, 2 UP, 3 lost. -/
def linkState (s : Block) : Nat := getF s F.GYDEN_STATE_LINK

/-- This node is the bus's timing master. -/
def masterNode (s : Block) : Bool := flag s F.GYDEN_CONFIG_EN && flag s F.GYDEN_CONFIG_MASTER

/-! ## GEV lines (R226 to R228, R234) -/

/-- Line `k`'s slot of GEVLSRC0 or GEVLSRC1: DRV and LVL. -/
def lineSrc (s : Block) (k : Nat) : Nat := bits (getW s (R.GYDEN_GEVLSRC0 + 4 * (k / 4))) (8 * (k % 4) + 7) (8 * (k % 4))

/-- A pulse or level of line `k` in slot `t` waits for its application; one is as good as two (R226). -/
def awaitSlot (g : GydenSt) (k t lvl : Nat) : GydenSt :=
  if g.apply.any (fun e => e.1 == k && e.2.1 == t) then g
  else { g with apply := g.apply ++ [(k, t, lvl)] }

/-- Until when (SYSTIME + 1) an entry of such a table holds; 0: not at all. -/
def untilOf (l : List (Nat × Nat)) (k : Nat) : Nat := Tbl.get (fun _ => 0) l k

/-- GEV_SLOT_SEND (R226, R228): at a scheduled slot the node drives a pulse of 100 ns; in every slot it drives a
level line whose gate level reads 1 at the slot's start. What it sends it applies too; off the bus it drives nothing
(R234). -/
def effGevSlotSend (k : Nat) (s : Block) : Out :=
  withIdx 8 k <|
    let g := s.gyden
    let drive := fun (t : Nat) =>
      if flag s F.GYDEN_CONFIG_EN then Tbl.set (fun _ => 0) g.driven k t else g.driven
    if gclkGone s || !routerOn s then .next s
    else if levelLine s k then
      let t := floorTo s.sysTime 200
      let w := lineSrc s k
      if !w.testBit 7 || !gateLevel s (w % 32) then .next s
      else .next (setGyden s { awaitSlot g k t 1 with driven := drive (t + 201) })
    else
      match g.slots.find? (fun p => p.1 == k && decide (p.2 ≤ s.sysTime)) with
      | none => .next s
      | some p =>
        let rest := g.slots.erase p
        let g := { awaitSlot g k p.2 0 with
          driven := drive (p.2 + 101), queued := g.queued.filter (· != k)
          slots := if g.queued.contains k then rest ++ [(k, p.2 + 200)] else rest }
        .next (incF (setGyden s g) F.GYDEN_GEV_TX_COUNT)

/-- GEV_RECEIVE (R226): an edge, or the level of a slot, on line `k` is assigned to its slot. -/
def effGevReceive (k : Nat) (s : Block) : Out :=
  withIdx 8 k <|
    if !flag s F.GYDEN_CONFIG_EN || linkState s != 2 || gclkGone s || !routerOn s then .next s
    else
      .next (setGyden s (awaitSlot s.gyden k ((s.sysTime + 50) / 200 * 200) (b2n (levelLine s k))))

/-- The lines this node drives, as GEVLVL.DRIVEN reads. -/
def drivenView (s : Block) : Nat :=
  (List.range 8).foldl (fun n k => n + b2n (decide (s.sysTime + 1 < untilOf s.gyden.driven k)) * 2 ^ k) 0

/-- L_SYS for slot `t` (R227). -/
def slotLsys (s : Block) (t : Nat) : Nat :=
  if t < s.gyden.lsysAt then s.gyden.lsysOld else getF s F.GYDEN_LSYS_NS

/-- The applied level of line `k` set, and kept in the history that the engines look back on. -/
def setApplied (s : Block) (k : Nat) (b : Bool) (t : Nat) : Block :=
  let old := getF s F.GYDEN_GEVLVL_APPLIED
  let new := mergeMask old (b2n b * 2 ^ k) (2 ^ k)
  if old = new then s
  else
    let s := setF s F.GYDEN_GEVLVL_APPLIED new
    let h := if s.acq.gev.isEmpty then [(0, old)] else s.acq.gev
    syncLevels { s with acq := { s.acq with gev := (t, new) :: h } }

/-- A bus event of line `k` applied at `t`: source 120 + k, and the records of the last event. -/
def busEvent (s : Block) (k t lvl : Nat) : Block :=
  let s := incF (fire s (120 + k) 0 t) F.GYDEN_GEV_RX_COUNT
  let s := set64 s F.GYDEN_LASTEV_LO_NS F.GYDEN_LASTEV_HI_NS t
  setF (setF s F.GYDEN_LASTEV_LINE_LINE k) F.GYDEN_LASTEV_LINE_LEVEL lvl

/-- GEV_APPLY (R227, R228): at T + L_SYS the pulse or level of slot T is applied, its level for 200 ns; a level line
fires on a rising edge. An applied level whose slot is over falls. -/
def effGevApply (k : Nat) (s : Block) : Out :=
  withIdx 8 k <|
    if !routerOn s then .next s
    else
    let g := s.gyden
    let due := g.apply.filter (fun e => e.1 == k && decide (e.2.1 + slotLsys s e.2.1 ≤ s.sysTime))
    match due.foldl (fun m e => match m with
        | none => some e
        | some x => if e.2.1 < x.2.1 then some e else some x) none with
    | none =>
      let u := untilOf g.upto k
      if u != 0 && decide (u ≤ s.sysTime + 1) then
        let s := setGyden s { g with upto := Tbl.set (fun _ => 0) g.upto k 0 }
        .next (setApplied s k false (u - 1))
      else .next s
    | some e =>
      let t := e.2.1 + slotLsys s e.2.1
      let on := decide (t + 1 ≤ untilOf g.upto k)
      let s := setGyden s { g with apply := g.apply.erase e, upto := Tbl.set (fun _ => 0) g.upto k (t + 201) }
      let s := setApplied s k true t
      .next (if e.2.2 = 1 && on then s else busEvent s k t e.2.2)

/-! ## SYSTIME jumps -/

/-- A pending instant moved with SYSTIME. -/
def shiftNat (d : Int) (t : Nat) : Nat := ((t : Int) + d).toNat

/-- The same for a table of instants + 1, 0 for none. -/
def shiftTbl (d : Int) (l : List (Nat × Nat)) : List (Nat × Nat) :=
  (l.map (fun e => (e.1, shiftNat d e.2))).filter (fun e => e.2 != 0)

/-- What unit `x` still has to do, moved with SYSTIME. -/
def shiftUnit (d : Int) (x : UnitSt) : UnitSt :=
  let sh := shiftNat d
  { x with
    trans := x.trans.map (fun p => (sh p.1, p.2)), actQ := x.actQ.map (fun p => (sh p.1, p.2))
    carveQ := x.carveQ.map (fun p => (sh p.1, p.2)), swapDue := x.swapDue.map sh
    sineDue := x.sineDue.map sh, lastB := sh x.lastB
    tempNew := x.tempNew.map (fun p => (p.1, sh p.2)), swFrom := x.swFrom.map sh
    lims := x.lims.map (fun p => (sh p.1, p.2))
    chain := x.chain.map (fun c => { c with b := sh c.b, pin := sh c.pin })
    exc := { x.exc with
      winAt := if x.exc.winAt = 0 then 0 else sh x.exc.winAt
      highAt := if x.exc.highAt = 0 then 0 else sh x.exc.highAt
      unlockAt := if x.exc.unlockAt = 0 then 0 else sh x.exc.unlockAt
      blendAt := if x.exc.blendAt = 0 then 0 else sh x.exc.blendAt }
    rc := x.rc.map (fun c => { c with co := none, p := if c.p = 0 then 0 else sh c.p }) }

/-- What lane cluster `x` still has to do, moved with SYSTIME. -/
def shiftLane (d : Int) (x : LaneSt) : LaneSt :=
  let sh := shiftNat d
  let at' := fun n => if n = 0 then 0 else sh n
  { x with
    pipe := x.pipe.map (fun p => { p with due := sh p.due }), pin := { x.pin with due := sh x.pin.due }
    trans := x.trans.map (fun p => (sh p.1, p.2)), lastEv := shiftTbl d x.lastEv, lastB := sh x.lastB
    vioBack := at' x.vioBack, safeAt := at' x.safeAt, cfgAt := at' x.cfgAt, levAt := at' x.levAt
    prbsAt := at' x.prbsAt, prbsTo := at' x.prbsTo, tapOld := x.tapOld.map (fun p => (sh p.1, p.2)) }

/-- SYSTIME takes another value while nothing is armed: what is pending in it moves with it, and the tick indexes of
the acquisition units begin anew. -/
def jumpTime (s : Block) (new frac : Nat) : Block :=
  let d : Int := (new : Int) - s.sysTime
  let sh := shiftNat d
  let e := s.event
  let g := s.gyden
  let s := forEach (List.range 64) s (fun s u => setUnit s u (shiftUnit d (unit s u)))
  let s := forEach (List.range 8) s (fun s c => setLane s c (shiftLane d (lane s c)))
  let s := forEach (List.range 32) s (fun s n => setAunit s n { aunit s n with next := 0, hist := [] })
  { s with
    sysTime := new
    strobes := s.strobes.map (fun t => { t with due := sh t.due, edge := sh t.edge })
    fires := s.fires.map (fun f => { f with due := sh f.due })
    hostIf := { s.hostIf with lastUg := [], ugClr := s.hostIf.ugClr.map (fun p => (p.1, sh p.2)) }
    clock := { s.clock with skipFrom := 0, skipTo := 0 }
    acq := { s.acq with traced := [], gev := [], fired := [] }
    cal := { s.cal with aswap := s.cal.aswap.map (fun p => (p.1, sh p.2)) }
    event := { e with
      lvlAt := 0, rtAt := 0, tmrAt := 0
      bus := e.bus.map (fun b => (b.1, b.2.1, sh b.2.2)), evinAt := shiftTbl d e.evinAt
      since := shiftTbl d e.since, dips := [], pulses := shiftTbl d e.pulses, ended := shiftTbl d e.ended, starts := shiftTbl d e.starts
      tmrs := e.tmrs.map (fun t => (t.1, { t.2 with next := if t.2.next = 0 then 0 else sh t.2.next })) }
    gyden := { g with
      frac := frac, slots := g.slots.map (fun p => (p.1, ceilTo (sh p.2) 200))
      apply := g.apply.map (fun p => (p.1, floorTo (sh p.2.1) 200, p.2.2)), driven := shiftTbl d g.driven
      upto := shiftTbl d g.upto, lsysAt := if g.lsysAt = 0 then 0 else sh g.lsysAt, lastEp := new + 1 } }

/-! ## Delay (R230) -/

/-- The applied delay becomes `d` ps; SYSTIME of a node on the bus follows it. -/
def setDelay (s : Block) (d : Nat) : Block :=
  let old := getF s F.GYDEN_DLY_PS
  let s := setF s F.GYDEN_DLY_PS d
  if slaveNode s && linkState s == 2 then moveTime s (signed 32 d - signed 32 old) else s

/-- A new delay is applied under R230. -/
def requestDelay (s : Block) (d : Nat) : Block :=
  let old := getF s F.GYDEN_DLY_PS
  let diff := signed 32 d - signed 32 old
  let none' := setF (setGyden s { s.gyden with dlyTgt := none }) F.GYDEN_STATE_DLY_PEND 0
  if d = old then none'
  else if !anyArmed s then setDelay none' d
  else
    let s := setGyden s { s.gyden with dlyTgt := some d }
    setB s F.GYDEN_STATE_DLY_PEND (decide (1000 < diff) || decide (diff < -1000))

/-- The delay of one epoch: a pending change is applied once nothing is armed, a small one 10 ps at a time. -/
def epochDelay (s : Block) : Block :=
  match s.gyden.dlyTgt with
  | none => s
  | some d =>
    let done := fun (s : Block) => setF (setGyden s { s.gyden with dlyTgt := none }) F.GYDEN_STATE_DLY_PEND 0
    if !anyArmed s then setDelay (done s) d
    else if flag s F.GYDEN_STATE_DLY_PEND then s
    else
      let old := signed 32 (getF s F.GYDEN_DLY_PS)
      let n := approach old (signed 32 d) 10
      let s := setDelay s (unsigned 32 n)
      if n = signed 32 d then done s else s

/-- The delay of a median round trip with the trim. -/
def delayOf (s : Block) (rtt : Nat) : Nat :=
  unsigned 32 (((rtt / 2 : Nat) : Int) + signed 16 (getF s F.GYDEN_DLY_TRIM_PS))

/-- DLY_TRIM was written: its change is applied by the same rules. -/
def trimWritten (s : Block) : Block := requestDelay s (delayOf s (getF s F.GYDEN_RTT_PS))

/-- The 256 round trips are done (R230, R231): the median is a free value. -/
def measured (s : Block) : Block :=
  let rtt := freeNat s 32
  let s := setF (useFree s) F.GYDEN_RTT_PS rtt
  let d := delayOf s rtt
  let s := setF s F.GYDEN_DLY_MEAS_PS d
  let s := if 90000 < signed 32 d then raise s F.GYDEN_STATUS_SPAN else s
  if linkState s = 1 then setF s F.GYDEN_DLY_PS d
  else if s.gyden.applyIt then requestDelay s d
  else s

/-! ## Epochs (R229, R233) -/

/-- L_SYS becomes `l` at the epoch `t`: a slot before it keeps the old one, on every node together (R227). -/
def newLsys (s : Block) (l t : Nat) : Block :=
  let old := getF s F.GYDEN_LSYS_NS
  if old = l then s
  else setF (setGyden s { s.gyden with lsysOld := old, lsysAt := t }) F.GYDEN_LSYS_NS l

/-- What a GYDEN_CONFIG set takes effect at an epoch of this package's own. -/
def ownEpoch (s : Block) : Block :=
  let g := s.gyden
  let s := match g.setLsys with
    | some l => newLsys s l s.sysTime
    | none => s
  let s := match g.setTime with
    | some t => jumpTime s t 0
    | none => s
  setGyden s { s.gyden with setLsys := none, setTime := none, told := false }

/-- The SYSTIME of the epoch whose GSYNC this is: on a slave the announced one, its own count less the delay to the nearest
multiple of 1 ms. -/
def epochTime (s : Block) : Nat :=
  if slaveNode s then (s.sysTime + 500000 - getF s F.GYDEN_DLY_PS / 1000) / 1000000 * 1000000 else s.sysTime

/-- The epoch that COMMIT names has come. -/
def commitDue (s : Block) : Bool :=
  match s.gyden.commitE with
  | some t => decide (t ≤ epochTime s)
  | none => false

/-- A mode change is committed at the GSYNC + L_SYS of the epoch its COMMIT names, or of the first one after it (R355). -/
def epochCommit (s : Block) : Block :=
  if s.gyden.commit = 0 || !commitDue s then s
  else
    let e := epochTime s + getF s F.GYDEN_LSYS_NS
    let s := setGyden s { s.gyden with commit := 0, commitE := none }
    match s.sys.change with
    | none => s
    | some c => if c.edge.isSome then s else commitAt s e

/-- A GSYNC of the master received: the announced values, the offset of a relock, joining and rejoining. -/
def heardSync (s : Block) (err : Int) : Block :=
  let s := incF (setGyden s { s.gyden with syncAt := s.now + 1 }) F.GYDEN_EPOCHS_COUNT
  let s := gsyncDelta s err
  let lk := linkState s
  let ann := s.gyden.nextEp
  let s := setGyden s { s.gyden with nextEp := none }
  let s := if bothLocked s then setGyden s { s.gyden with lost := false } else s
  let dly := getF s F.GYDEN_DLY_PS
  match ann with
  | none =>
    let s := if 2 ≤ lk then setF s F.GYDEN_SYNCERR_PS (unsigned 32 err) else s
    if lk = 3 && bothLocked s then setF s F.GYDEN_STATE_LINK 2 else s
  | some (t, l, lm) =>
    let load := fun (s : Block) => jumpTime s (t + dly / 1000) (dly % 1000 * 65536 / 1000)
    let mirror := fun (s : Block) => setF (newLsys s l t) F.GYDEN_GEVCFG_LMODE lm
    if lk = 1 then
      if bothLocked s && s.gyden.trips = 0 then setF (mirror (load s)) F.GYDEN_STATE_LINK 2 else s
    else if lk = 3 then
      let s := setF s F.GYDEN_SYNCERR_PS (unsigned 32 err)
      if bothLocked s then setF (mirror s) F.GYDEN_STATE_LINK 2 else s
    else
      let far := decide (s.sysTime + 500000 < t) || decide (t + 500000 < s.sysTime)
      let s := setF s F.GYDEN_SYNCERR_PS (unsigned 32 err)
      mirror (if far then load s else s)

/-- EPOCH (R229): on a master or a package off the bus at its own SYSTIME multiple of 1,000,000 ns; on another node
at the GSYNC it receives, with its error against the node's count in ps (reference less local). -/
def effEpoch (syncErr : Int) (s : Block) : Out :=
  if !routerOn s then .next s
  else if slaveNode s then
    if linkState s = 0 then .next s
    else .next (settleJobs (syncClock (epochDelay (epochCommit (heardSync s syncErr)))))
  else if s.sysTime % 1000000 != 0 || s.gyden.lastEp == s.sysTime + 1 then .next s
  else
    let s := setGyden s { s.gyden with lastEp := s.sysTime + 1 }
    if !flag s F.GYDEN_CONFIG_EN then .next (syncClock (epochDelay (ownEpoch s)))
    else if !flag s F.CLOCK_STATE_EXPORT then .next s
    else
      let s := incF s F.GYDEN_EPOCHS_COUNT
      let s := if s.gyden.told then ownEpoch s else s
      let s := if linkState s = 1 then setF s F.GYDEN_STATE_LINK 2 else s
      .next (settleJobs (syncClock (epochDelay (epochCommit s))))

/-- GCLK_LOST (R233): the node leaves the bus until its clocks are locked again; its reference is lost (R245). -/
def effGclkLost (s : Block) : Out :=
  if !slaveNode s || linkState s = 0 || gclkGone s || !routerOn s then .next s
  else
    let s := incF (raise s F.GYDEN_STATUS_GCLK_LOST) F.GYDEN_GCLK_LOSS_COUNT
    let s := if linkState s = 2 then setF s F.GYDEN_STATE_LINK 3 else s
    let s := setGyden s { s.gyden with slots := [], queued := [], apply := [], driven := [], upto := [], lost := true }
    let s := forEach (List.range 8) s (fun s k => setApplied s k false s.sysTime)
    .next (settleJobs (if s.clock.refLost || getF s F.CLOCK_CTRL_REFSEL != 3 then syncClock s
      else refLoss s false))

/-! ## GDAT (R232, R355, R358) -/

/-- What this node knows of node `n`. -/
def nodeOf (s : Block) (n : Nat) : NodeSt := Tbl.get (fun _ => ({} : NodeSt)) s.gyden.nodes n

/-- Node `n` changed. -/
def setNode (s : Block) (n : Nat) (x : NodeSt) : Block :=
  setGyden s { s.gyden with nodes := Tbl.set (fun _ => ({} : NodeSt)) s.gyden.nodes n x }

/-- A bit of a 16-bit register field set to `b`. -/
def setNodeBit (s : Block) (f : Fld) (n : Nat) (b : Bool) : Block :=
  setF s f (mergeMask (getF s f) (b2n b * 2 ^ n) (2 ^ n))

/-- A mailbox message of node `n` taken (R232). -/
def takeMail (s : Block) (n : Nat) (mail : Option (Nat × List Word)) : Block :=
  match mail with
  | none => s
  | some (dest, ws) =>
    if dest = ownNode s || dest = 16 then
      let s := if flag s F.GYDEN_GDAT_STAT_RX_VALID then raise s F.GYDEN_STATUS_RX_OVR else s
      let s := forEach (List.range 4) s (fun s i =>
        setF s (F.GYDEN_GDAT_RX0_DATA.at (4 * i)) (ws.getD i 0).toNat)
      let s := setF (raise s F.GYDEN_GDAT_STAT_RX_VALID) F.GYDEN_GDAT_STAT_RX_SRC n
      setB s F.GYDEN_GDAT_STAT_RX_BCAST (dest == 16)
    else s

/-- This node prepares its part of a system-wide change (R355). -/
def preparePart (s : Block) (t : Nat) : Block :=
  let s := startChange s t false 65535
  { s with sys := { s.sys with change := s.sys.change.map (fun c => { c with system := true }) } }

/-- A mode message of node `n`: PREPARE and COMMIT from the master, reports to it (R355). -/
def takeModeMsg (s : Block) (n : Nat) (m : ModeMsg) : Block :=
  match m with
  | .none => s
  | .prepare t =>
    if masterNode s || s.sys.change.isSome then s
    else
      let r := (refusals s t).isEmpty && modePair (modeOf s) t
      let s := setGyden s { s.gyden with reply := if r then 1 else 2 }
      if r then preparePart s t else s
  | .commit t ep =>
    if masterNode s || modeOf s = t || !modePair (modeOf s) t then s
    else
      let s := if s.sys.change.isSome then s else preparePart s t
      setGyden s { s.gyden with commit := t + 1, commitE := some ep }
  | .ready => partyReports s (0x400 + n) none
  | .refused => partyReports s (0x400 + n) (some (5, 0x400 + n))

/-- GDAT_FRAME_RECEIVE (R232). -/
def effGdatFrameReceive (f : GdatFrame) (s : Block) : Out :=
  withIdx 16 f.node <|
    if gclkGone s || !routerOn s then .next s
    else if !f.crcOk then .next (incF (raise s F.GYDEN_STATUS_GDAT_CRC) F.GYDEN_GDAT_CRCERR_COUNT)
    else
      let n := f.node
      let s := setNode s n
        ⟨f.delay, f.mode, 1 + b2n f.armed * 2 + b2n f.span * 4 + b2n f.gclkLost * 8, s.now + 1⟩
      let s := setNodeBit (setNodeBit s F.GYDEN_PRESENT_NODES n true) F.GYDEN_ARMED_NODES_NODES n f.armed
      let s := if f.master then
          let s := setF s F.GYDEN_STATE_MASTER_NODE n
          let g := { s.gyden with syncAt := s.now + 1, nextEp := f.announce }
          match f.measure with
          | some apply =>
            if slaveNode s && linkState s == 2 then setGyden s { g with trips := 256, applyIt := apply } else setGyden s g
          | none => setGyden s g
        else s
      if !flag s F.GYDEN_CONFIG_EN then .next s
      else
        let s := takeModeMsg (takeMail s n f.mail) n f.msg
        .next (settleJobs (if f.safe then safeFromNode s else s))

/-- This node's next frame carries a PREPARE or a COMMIT, which go before the mailbox (R232). -/
def modeFrame (s : Block) : Bool := (s.gyden.prep && s.sys.change.isSome) || decide (0 < s.gyden.commitN)

/-- GDAT_FRAME_SEND (R232): once in an epoch the node's frame goes out in its slot. It carries the reply to a PREPARE, a
SAFE's announcement, one round trip of a measurement, and the mailbox where it carries no PREPARE and no COMMIT; the
master's carries what the next epoch loads and the COMMIT it repeats. -/
def effGdatFrameSend (s : Block) : Out :=
  let g := s.gyden
  let ep := getF s F.GYDEN_EPOCHS_COUNT + 1
  let lk := linkState s
  if !flag s F.GYDEN_CONFIG_EN || (lk != 1 && lk != 2) || gclkGone s || !routerOn s || g.sentIn == ep then .next s
  else
    let s := if modeFrame s then s else setF s F.GYDEN_GDAT_STAT_TX_BUSY 0
    let s := { s with sys := { s.sys with announce := false } }
    let last := g.trips == 1 && (masterNode s || bothLocked s)
    let s := setGyden s { g with
      sentIn := ep, reply := 0, commitN := g.commitN - 1, prep := false
      commitE := if decide (0 < g.commitN) && g.commit != 0 && g.commitE.isNone then
          some ((s.sysTime / 1000000 + 1) * 1000000) else g.commitE
      told := masterNode s && (g.setTime.isSome || g.setLsys.isSome || g.told)
      trips := if masterNode s || bothLocked s then g.trips - 1 else g.trips }
    .next (settleJobs (if last && !masterNode s then measured s else s))

/-- NODE_LOST (R232): node `n` has not been heard for 16 epochs. -/
def effNodeLost (n : Nat) (s : Block) : Out :=
  withIdx 16 n <|
    let x := nodeOf s n
    if x.flags % 2 = 0 || !routerOn s || decide (s.now + 1 < x.heard + 16000000) then .next s
    else
      let s := setNode s n { x with flags := x.flags - 1 }
      let s := setNodeBit s F.GYDEN_PRESENT_NODES n false
      let s := setNodeBit s F.GYDEN_ARMED_NODES_NODES n false
      let s := raise s F.GYDEN_STATUS_NODE_LOST
      .next (settleJobs (partyReports s (0x400 + n) (some (5, 0x400 + n))))

/-- GDAT_CTRL.SEND (R232). -/
def gdatSendOp (s : Block) (v : Nat) : Block :=
  let d := v % 32
  let s := if 16 < d then s else setF s F.GYDEN_GDAT_CTRL_DEST d
  if v.testBit 8 && decide (d ≤ 16) then setF s F.GYDEN_GDAT_STAT_TX_BUSY 1 else s

/-- NODE_DLY and NODE_STAT as they read, for the node selected. -/
def nodeDlyView (s : Block) : Nat := (nodeOf s (getF s F.GYDEN_NODE_SEL_NODE)).delay
def nodeStatView (s : Block) : Nat :=
  let x := nodeOf s (getF s F.GYDEN_NODE_SEL_NODE)
  x.flags + x.mode % 16 * 256

/-! ## GYDEN_CONFIG (R225) and GYDEN_MEASURE (R230) -/

/-- The link of a package that changes its place on the bus: off the bus, a master before its first GSYNC, or a node
that joins. -/
def joinBus (s : Block) (en master : Bool) (node : Nat) : Block :=
  let s := setB (setB s F.GYDEN_CONFIG_EN en) F.GYDEN_CONFIG_MASTER master
  let s := setF s F.GYDEN_CONFIG_NODE node
  let g := s.gyden
  let s := setGyden s { g with
    slots := [], queued := [], apply := [], driven := [], upto := [], nextEp := none, trips := 0, sentIn := 0
    told := false, joinBy := 0, lost := false }
  let s := forEach (List.range 8) s (fun s k => setApplied s k false s.sysTime)
  if !en then syncClock (setF s F.GYDEN_STATE_LINK 0)
  else if master then syncClock (setF s F.GYDEN_STATE_LINK 1)
  else
    let s := setF s F.GYDEN_STATE_LINK 1
    let s := setGyden s { s.gyden with joinBy := s.now + 100000001, trips := 256 }
    selectRef s 3 false

/-- GYDEN_CONFIG's checks and effect, in the order of R225. -/
def gydenConfigBody (s : Block) (p : List Word) : CmdRes :=
  let en := pb p 1 0 0 = 1
  let master := pb p 1 1 1 = 1
  let node := pb p 1 7 4
  let setL := pb p 1 8 8 = 1
  let setT := pb p 1 9 9 = 1
  let l := pw p 2
  let t := pw64 p 3
  let same := decide en == flag s F.GYDEN_CONFIG_EN && decide master == flag s F.GYDEN_CONFIG_MASTER &&
    node == ownNode s
  let heard := s.gyden.syncAt != 0 && decide (s.now + 1 ≤ s.gyden.syncAt + 1000000)
  let present := (getF s F.GYDEN_PRESENT_NODES).testBit node
  notInBoot s <|
    if !same && anyArmed s then .fail s Sts.state
    else if master && heard then
      .done (raise s F.GYDEN_STATUS_MASTER_CONFLICT) Sts.state 0 1 (getF s F.GYDEN_STATE_MASTER_NODE)
    else if present then .done (raise s F.GYDEN_STATUS_DUP_NODE) Sts.state 0 1 0
    else if (setL || setT) && !master then .fail s Sts.badParam
    else if (setL || setT) && (anyArmed s || getF s F.GYDEN_ARMED_NODES_NODES != 0) then .fail s Sts.state
    else if setL && (l % 25 != 0 || decide (l < 500) || decide (20000 < l)) then .fail s Sts.badParam
    else if setT && t % 1000000 != 0 then .fail s Sts.badParam
    else
      let s := if same then s else joinBus s en master node
      let s := if setL then setGyden s { s.gyden with setLsys := some l } else s
      let s := if setT then setGyden s { s.gyden with setTime := some t } else s
      if !en || (same && linkState s == 2) then .okay s
      else
        let by' := s.gyden.joinBy
        let s := setGyden s { s.gyden with joinBy := if master || by' != 0 then by' else s.now + 100000001 }
        .wait s [] 0 0

/-- GYDEN_CONFIG (0x70). -/
def effGydenConfig (h : Hdr) (p : List Word) (s : Block) : Out :=
  runCmd s h Op.gydenConfig p [] (· == 5) [0x3F3, 0xFFFF, 0xFFFFFFFF, 0xFFFFFFFF] gydenConfigBody

/-- GYDEN_MEASURE's checks and effect. -/
def gydenMeasureBody (s : Block) (p : List Word) : CmdRes :=
  let all := pb p 1 0 0 = 1
  notInBoot s <|
    if linkState s != 2 then .fail s Sts.state
    else if all && !masterNode s then .fail s Sts.badParam
    else if masterNode s && !all then .okay s
    else
      let n := (otherNodes s).length
      if all && n = 0 then .done s Sts.ok 0 0 0
      else
        let s := setGyden s { s.gyden with trips := 256, applyIt := decide (pb p 1 1 1 = 1) }
        .wait s [if all then n else 1] 0 0

/-- GYDEN_MEASURE (0x71). -/
def effGydenMeasure (h : Hdr) (p : List Word) (s : Block) : Out :=
  runCmd s h Op.gydenMeasure p [] (· == 2) [3] gydenMeasureBody

/-! ## The meanings -/

/-- GEV_SLOT_SEND (R226, R228), done to the block; the queue stays. -/
def execGevSlotSend (k : Nat) (s : State) : Host.Outcome State Fault Refusal :=
  onBlock s (effGevSlotSend k)

/-- GEV_RECEIVE (R226), done to the block; the queue stays. -/
def execGevReceive (k : Nat) (s : State) : Host.Outcome State Fault Refusal :=
  onBlock s (effGevReceive k)

/-- GEV_APPLY (R227, R228), done to the block; the queue stays. -/
def execGevApply (k : Nat) (s : State) : Host.Outcome State Fault Refusal :=
  onBlock s (effGevApply k)

/-- EPOCH (R229), done to the block; the queue stays. -/
def execEpoch (syncErr : Int) (s : State) : Host.Outcome State Fault Refusal :=
  onBlock s (effEpoch syncErr)

/-- GCLK_LOST (R233), done to the block; the queue stays. -/
def execGclkLost (s : State) : Host.Outcome State Fault Refusal :=
  onBlock s (effGclkLost)

/-- GDAT_FRAME_RECEIVE (R232), done to the block; the queue stays. -/
def execGdatFrameReceive (f : GdatFrame) (s : State) : Host.Outcome State Fault Refusal :=
  onBlock s (effGdatFrameReceive f)

/-- GDAT_FRAME_SEND (R232), done to the block; the queue stays. -/
def execGdatFrameSend (s : State) : Host.Outcome State Fault Refusal :=
  onBlock s (effGdatFrameSend)

/-- NODE_LOST (R232), done to the block; the queue stays. -/
def execNodeLost (n : Nat) (s : State) : Host.Outcome State Fault Refusal :=
  onBlock s (effNodeLost n)

/-- GYDEN_CONFIG (0x70), done to the block; the queue stays. -/
def execGydenConfig (h : Hdr) (p : List Word) (s : State) : Host.Outcome State Fault Refusal :=
  onBlock s (effGydenConfig h p)

/-- GYDEN_MEASURE (0x71), done to the block; the queue stays. -/
def execGydenMeasure (h : Hdr) (p : List Word) (s : State) : Host.Outcome State Fault Refusal :=
  onBlock s (effGydenMeasure h p)

end Sys2Proof.Machine
end

