-- ==== Sys2Proof/Machine/NvmCommands.lean ====
section
/-! DEFINITION. NVM_READ, NVM_WRITE and MICROCODE_RELOAD (R308, R394, R399). -/

namespace Sys2Proof.Machine

/-! ## NVM_READ -/

/-- One piece of 4 KiB at most, from byte `i` of the span: copied, and the CRC carried on. -/
def readPiece (s : Block) (h : Hdr) (p : List Word) (i crc : Nat) : Block × Nat :=
  let l := nvmBytes s (pb p 1 25 0 + i) (min 4096 (pb p 2 16 0 - i))
  let s := setF { s with nvm := { s.nvm with idle := s.now } } F.NVM_STATE_DPD 0
  (toHost s h (pw64 p 3 + i) l, l.foldl crcByte crc)

/-- NVM_READ's checks and first piece; `todo`: bytes copied, the CRC so far. -/
def nvmReadBody (h : Hdr) (s : Block) (p : List Word) : CmdRes :=
  let a := pb p 1 25 0
  let n := pb p 2 16 0
  if a % 4 != 0 || n % 4 != 0 || n = 0 || decide (65536 < n) || decide (2 ^ 26 < a + n) ||
      !destOk s h (pw64 p 3) n then .fail s Sts.badParam
  else
    let r := readPiece s h p 0 0xFFFFFFFF
    if n ≤ 4096 then .done r.1 Sts.ok 0 1 (r.2 ^^^ 0xFFFFFFFF) else .more r.1 1 0 [4096, r.2]

/-- NVM_READ (0x58): accepted in BOOT (R390, R394). -/
def effNvmRead (h : Hdr) (p : List Word) (s : Block) : Out :=
  runCmd s h Op.nvmRead p [] (· == 5) [0x3FFFFFF, 0x1FFFF, 0xFFFFFFFF, 0xFFFFFFFF] (nvmReadBody h)

/-- A later step of NVM_READ: one piece more. -/
def nvmReadContinue (s : Block) (j : Job) : Block :=
  let i := j.todo.headD 0
  let r := readPiece s j.h j.p i (j.todo.getD 1 0)
  let k := { j with steps := j.steps + 1, todo := [i + 4096, r.2] }
  if pb j.p 2 16 0 ≤ i + 4096 then endJob r.1 { k with result := r.2 ^^^ 0xFFFFFFFF } Sts.ok 0 else putJob r.1 j k

/-! ## NVM_WRITE -/

/-- The object an NVM_WRITE names does not exist, or its span is not as Table 17-7 asks. -/
def writeSpanBad (p : List Word) : Bool :=
  let i := pb p 1 13 8
  let o := pw p 2
  let n := pw p 3
  match pb p 1 3 0 with
  | 1 => decide (64 ≤ i) || o != 0 || n != 32
  | 2 => decide (8 ≤ i) || o != 0 || n != 36
  | 3 => decide (16 ≤ i) || o % 256 != 0 || n % 4 != 0 || n = 0 || decide (65536 < o + n)
  | 4 => decide (2 ≤ i) || o % 256 != 0 || n % 4 != 0 || n = 0 || decide (0x100000 < o + n)
  | _ => true

/-- The bytes of the write; none where their source is not available or the packet does not fit it. -/
def writeData (s : Block) (h : Hdr) (p d : List Word) : Option (List Byte) :=
  let n := pw p 3
  match pb p 1 17 16 with
  | 0 => if 4 * (p.length - 5) = n then some (wordsBytes (p.drop 5)) else none
  | 1 => if inWindow s h.ring || p.length != 5 then none
    else some ((wordsBytes d ++ List.replicate n 0).take n)
  | 2 => if p.length != 5 || decide (0x10000 < pw p 4 + n) then none
    else some ((List.range n).map (fun i => Tbl.get (fun _ => (0 : Byte)) s.cmd.window (pw p 4 + i)))
  | _ => none

/-- The record fails its check (R80, R171). -/
def writeRecordBad (p : List Word) (l : List Byte) : Bool :=
  match pb p 1 3 0 with
  | 1 => !unitRecOk (pb p 1 13 8) l
  | 2 => !laneRecOk (pb p 1 13 8) l
  | _ => false

/-- The change an NVM_WRITE queues (R398, R399); the CRCs of its audit record follow when it begins. -/
def writeTx (s : Block) (h : Hdr) (p : List Word) (l : List Byte) : NvmTx :=
  let i := pb p 1 13 8
  let cls := if h.ring = 3 then 0 else 1
  let nums := l.map (fun b => b.toNat)
  let au := fun k => [k, b2n (inWindow s h.ring), 0, i, 0, 0, 0, 0, 0, 0, 0]
  match pb p 1 3 0 with
  | 1 => ⟨1, i, cls, h.ring, s.cmd.cur, nums, au 2, 0, []⟩
  | 2 => ⟨2, i, cls, h.ring, s.cmd.cur, nums, au 3, 0, []⟩
  | 3 =>
    let a := 0x600000 + i * 0x10000
    let o := pw p 2
    let erase := if o = 0 then [⟨4, a, []⟩] else []
    ⟨3, i, cls, h.ring, s.cmd.cur, [], au 4, 0,
      erase ++ pagePrograms (a + o) l⟩
  | _ =>
    let a := imageBase i
    let erase := if pw p 2 = 0 then (List.range 16).map (fun k => ⟨4, a + 0x10000 * k, []⟩) else []
    ⟨4, i, cls, h.ring, s.cmd.cur, [], [], 0, erase ++ pagePrograms (a + pw p 2) l⟩

/-- A check of a slot that is no start-up and no reload: its VALID bit and VERSION alone. -/
def noteSlot (s : Block) (i : Nat) (ok : Bool) : Block :=
  let s := setB s (if i = 0 then F.NVM_BOOT_A_VALID else F.NVM_BOOT_B_VALID) ok
  setF s ⟨R.NVM_SLOTA_VER + 4 * i, 31, 0⟩ (if ok then imageWord s i 8 else 0)

/-- NVM_WRITE's checks and the change it queues; in BOOT the boot ROM takes image slots alone (R394). `rd`: the
other slot reads as it stands. -/
def nvmWriteBody (h : Hdr) (d : List Word) (rd : Bool) (s : Block) (p : List Word) : CmdRes :=
  let rom := getF s F.HOSTCMD_STATE_UE_STATE = 4 && pb p 1 3 0 = 4
  let i := pb p 1 13 8
  if modeOf s = 0 && !rom then .fail s Sts.state
  else if writeSpanBad p then .fail s Sts.badParam
  else
    match writeData s h p d with
    | none => .fail s Sts.badParam
    | some l =>
      if writeRecordBad p l then .fail s Sts.badParam
      else
        let preferred := pb p 1 3 0 = 4 && i = getF s F.NVM_BOOT_PREF
        let ok := imageOk s (1 - i) rd
        let s := if preferred then noteSlot s (1 - i) ok else s
        if preferred && !ok then .fail s Sts.state
        else .more (nvmKick (nvmQueue s (writeTx s h p l))) 0 0 [0]

/-- NVM_WRITE (0x59). -/
def effNvmWrite (h : Hdr) (p d : List Word) (otherRead : Bool) (s : Block) : Out :=
  runCmd s h Op.nvmWrite p d (fun n => decide (6 ≤ n)) [0x33F0F] (nvmWriteBody h d otherRead)

/-- A command whose change is at the NOR: it ends as the change was refused or failed, or once it is done; `todo` holds
the status and DETAIL to end with. -/
def txContinue (s : Block) (j : Job) : Block :=
  let hd := j.todo.headD 0
  if 0x1000 ≤ hd then endJob s j (hd - 0x1000) j.detail
  else if s.nvm.txs.any (fun x => isTxJob x j) then s
  else endJob s j hd (j.todo.getD 1 0)

/-- The microengine runs again once its reload has completed (R308). -/
def endReload (s : Block) : Block :=
  if getF s F.HOSTCMD_STATE_UE_STATE = 3 && !s.cmd.jobs.any (fun j => j.op == Op.microcodeReload) then
    setF s F.HOSTCMD_STATE_UE_STATE 2
  else s

/-! ## MICROCODE_RELOAD (R308) -/

/-- The mode or an armed object forbids a reload; in BOOT with no image nothing does (R394). -/
def reloadForbidden (s : Block) : Bool :=
  if getF s F.HOSTCMD_STATE_UE_STATE = 4 then false
  else modeOf s != 1 || anySeqArmed s || anyCapArmed s || liftBusy s

/-- The audit entry of a reload of slot `i`, which is written in the safety class, so that no want of power keeps a reload out
of the log (DESIGN CHOICE, log entry 40); the CRCs are no record's, and free values stand for them. -/
def reloadAudit (s : Block) (h : Hdr) (i failed : Nat) : List Nat :=
  [5, b2n (inWindow s h.ring), failed, i, freeNat s 32, freeNat (useFree s) 32, 0, 0, 0, 0, 0]

/-- The new image is loaded; UE_STATE reads reload until the command completes. From BOOT the start-up continues from step
4. -/
def reloadDone (h : Hdr) (p : List Word) (s : Block) : CmdRes :=
  let i := pb p 1 0 0
  let rom := getF s F.HOSTCMD_STATE_UE_STATE == 4
  let s := noteCheck s i true
  let s := if pb p 1 8 8 = 1 then
      { s with nvm := { s.nvm with minsvn := max s.nvm.minsvn (imageWord s i 0x0C % 32) } }
    else s
  let s := match rom, s.boot.env with
    | true, some b => runImage b i s
    | true, none => setF (setF { s with sys := { s.sys with cdie := 1 } } F.HOSTCMD_STATE_UE_STATE 2)
        F.GLOBAL_MODE_CUR 1
    | false, _ => setF s F.HOSTCMD_STATE_UE_STATE 3
  let s := showImage s i
  let au := reloadAudit s h i 0
  let s := useFree (useFree s)
  let x : NvmTx := if pb p 1 4 4 = 1 then ⟨5, i, 2, h.ring, s.cmd.cur, [i, 0, 0, 0], au, 0, []⟩
    else ⟨9, i, 2, h.ring, s.cmd.cur, au, [], 0, []⟩
  .more (nvmKick (nvmQueue s x)) 1 0 [Sts.ok, 0]

/-- The image in the named slot fails its check: the image that ran is loaded again, or none runs and the device is
in BOOT. -/
def reloadFailed (h : Hdr) (p : List Word) (back : Bool) (s : Block) : CmdRes :=
  let i := pb p 1 0 0
  let rom := getF s F.HOSTCMD_STATE_UE_STATE == 4
  let s := noteCheck s i false
  let au := reloadAudit s h i 1
  let s := useFree (useFree s)
  let s := if rom then s
    else if imageOk s (getF s F.HOSTCMD_UE_SLOT_ACTIVE) back then setF s F.HOSTCMD_STATE_UE_STATE 3
    else
      let s := setF { s with sys := { s.sys with cdie := 0 } } F.HOSTCMD_STATE_UE_STATE 4
      setF s F.GLOBAL_MODE_CUR 0
  .more (nvmKick (nvmQueue s ⟨9, i, 2, h.ring, s.cmd.cur, au, [], 0, []⟩)) 1 0 [Sts.nvmFail, 1]

/-- MICROCODE_RELOAD's checks in order, and the reload. -/
def reloadBody (h : Hdr) (rd back : Bool) (s : Block) (p : List Word) : CmdRes :=
  if reloadForbidden s then .fail s Sts.state
  else if !s.cmd.jobs.isEmpty then .fail s Sts.busy
  else if imageOk s (pb p 1 0 0) rd then reloadDone h p s
  else reloadFailed h p back s

/-- MICROCODE_RELOAD (0x7E). -/
def effMicrocodeReload (h : Hdr) (p : List Word) (rd backRd : Bool) (s : Block) : Out :=
  runCmd s h Op.microcodeReload p [] (· == 2) [0x111] (reloadBody h rd backRd)

/-! ## The meanings -/

/-- NVM_READ (0x58), done to the block; the queue stays. -/
def execNvmRead (h : Hdr) (p : List Word) (s : State) : Host.Outcome State Fault Refusal :=
  onBlock s (effNvmRead h p)

/-- NVM_WRITE (0x59), done to the block; the queue stays. -/
def execNvmWrite (h : Hdr) (p d : List Word) (otherRead : Bool) (s : State) : Host.Outcome State Fault Refusal :=
  onBlock s (effNvmWrite h p d otherRead)

/-- MICROCODE_RELOAD (0x7E), done to the block; the queue stays. -/
def execMicrocodeReload (h : Hdr) (p : List Word) (rd backRd : Bool) (s : State) : Host.Outcome State Fault Refusal :=
  onBlock s (effMicrocodeReload h p rd backRd)

end Sys2Proof.Machine
end

