-- ==== Sys2Proof/Machine/Views.lean ====
section
/-! DEFINITION. What a register shows on a read (R312, R321, R322): the stored word, or for a live value what it is
computed from. A measured value that the spec does not fix is a free value. -/

namespace Sys2Proof.Machine

/-- The `k`-th free value of a read, as a number below 2^`n`. -/
def freeAt (s : Block) (k n : Nat) : Nat := (Config.freeValue (s.free + k)).toNat % 2 ^ n

/-- The bound of the registers that show only a measured value: the measure lies below it. -/
def measureBound (a : Nat) : Option Nat :=
  match a with
  | 0x10FC => some (2 ^ 14)
  | 0x304C => some (2 ^ 32)
  | 0x308C => some (2 ^ 32) | 0x3090 => some (2 ^ 24) | 0x30AC => some (2 ^ 32) | 0x30B0 => some (2 ^ 24)
  | 0x30CC => some (2 ^ 32) | 0x30D0 => some (2 ^ 24) | 0x30EC => some (2 ^ 32) | 0x30F0 => some (2 ^ 24)
  | 0x4070 => some (2 ^ 10) | 0x8034 => some (2 ^ 16)
  | _ => none

/-- BACKUP_ERR: a residue within ±500 ps (R251). -/
def backupErr (s : Block) (k : Nat) : Nat := unsigned 16 ((freeAt s k 64 % 1001 : Nat) - 500)

/-- The latencies of row `r` of Table 11-2 in 250 ps units: the smallest, and how many follow it. Rows whose latency the
table does not give in ns have any. -/
def crossSpan (r : Nat) : Nat × Nat :=
  match r with
  | 0 => (32, 49)
  | 1 => (15, 6)
  | 2 => (10, 1)
  | 5 => (500, 1)
  | 6 => (40, 21)
  | 7 => (15, 65521)
  | _ => (0, 65536)

/-- The service limits double at FSP1 (R263). -/
def rtScale (s : Block) : Nat := 1 + getF s F.DRAMC_STATE_FSP

/-- A request of class `c` has been served within the last 10 ms (Table 12-14). -/
def busyLately (s : Block) (c : Nat) : Bool :=
  let t := Tbl.get (fun _ => 0) s.dramc.served c
  t != 0 && decide (s.now < t + 10000000)

/-- BW_RT0, BW_RT1, BW_NRT and UTIL: measures of the last 10 ms, each 0 where nothing was served in them. -/
def dramLoad (s : Block) (v a : Nat) : Option Nat :=
  let u := fun (x : Nat) => if [0, 1, 2].any (busyLately s) then x % 101 else 0
  match a with
  | 0xA0E4 => some (if busyLately s 0 then v % 2 ^ 16 else 0)
  | 0xA0E8 => some (if busyLately s 1 then v % 2 ^ 16 else 0)
  | 0xA0EC => some (if busyLately s 2 then v % 2 ^ 16 else 0)
  | 0xA0F0 => some (u v + 256 * u (v / 2 ^ 32))
  | _ => none

/-- What class `c` was served has been looked at, or restarts. -/
def seenServed (s : Block) (c : Nat) : Block :=
  { s with dramc := { s.dramc with unseen := s.dramc.unseen.filter (fun x => x != c) } }

/-- STEP_MAX (0) or LAT_URG (1) has been looked at. -/
def seenSteps (s : Block) (k : Nat) : Block :=
  { s with cmd := { s.cmd with unseen := s.cmd.unseen.filter (fun x => x != k) } }

/-- A register that holds the largest latency or step seen takes the latest before it is read (R255, R263, R294): each a
free value, within the limits that the spec gives; those of DRAM where a request of its class was served since it was last
looked at. The ZQ calibrations made meanwhile are counted, as many as a free value says. -/
def observe (s : Block) (a : Nat) : Block :=
  if a = R.CLOCK_CROSS_LAT then
    let r := getF s F.CLOCK_CROSS_SEL_ROW
    let v := (crossSpan r).1 + freeNat s 64 % (crossSpan r).2
    let c := s.clock
    let m := max (Tbl.get (fun _ => 0) c.cross r) v
    let s := { useFree s with clock := { c with cross := Tbl.set (fun _ => 0) c.cross r m } }
    setF (setF s F.CLOCK_CROSS_LAT_LAST v) F.CLOCK_CROSS_LAT_MAX m
  else if a = R.DRAMC_LAT_RT0 && s.dramc.unseen.contains 0 then
    let v := freeNat s 64
    useFree (seenServed (maxF (maxF s F.DRAMC_LAT_RT0_BURST (v % (1500 * rtScale s + 1))) F.DRAMC_LAT_RT0_BEAT
      (v / 2 ^ 32 % (600 * rtScale s + 1))) 0)
  else if a = R.DRAMC_LAT_RT1 && s.dramc.unseen.contains 1 then
    let v := freeNat s 64
    useFree (seenServed (maxF (maxF s F.DRAMC_LAT_RT1_BURST (v % 2 ^ 16)) F.DRAMC_LAT_RT1_BEAT
      (v / 2 ^ 32 % (2000 * rtScale s + 1))) 1)
  else if a = R.DRAMC_ZQ_STAT && getF s F.DRAMC_STATE_DSTATE != 0 then
    useFree (addF s F.DRAMC_ZQ_STAT_COUNT (freeNat s 32))
  else if a = R.HOSTCMD_LAT_URG && s.cmd.unseen.contains 1 then
    useFree (maxF (seenSteps s 1) F.HOSTCMD_LAT_URG_NS (freeNat s 64 % 5001))
  else if a = R.HOSTCMD_STEP_MAX && s.cmd.unseen.contains 0 then
    useFree (maxF (seenSteps s 0) F.HOSTCMD_STEP_MAX_CYCLES (freeNat s 64 % (if flag s F.HOSTCMD_STATUS_STEP_WDOG then 4097 else 2001)))
  else s

/-- Fields of other registers that show a measured value: their mask. -/
def measuredMask (a : Nat) : Nat :=
  if a = 0x3084 || a = 0x30A4 || a = 0x30C4 || a = 0x30E4 then
    maskOf F.CLOCK_L0_LSTAT_PHERR.hi F.CLOCK_L0_LSTAT_PHERR.lo |||
      maskOf F.CLOCK_L0_LSTAT_TUNE_RAIL.hi F.CLOCK_L0_LSTAT_TUNE_RAIL.lo
  else if a = R.HOSTCMD_UE_PC then maskOf F.HOSTCMD_UE_PC_MADDR.hi F.HOSTCMD_UE_PC_MADDR.lo
  else if a = R.CLOCK_X32_STAT then maskOf F.CLOCK_X32_STAT_PPM.hi F.CLOCK_X32_STAT_PPM.lo
  else if 0x30000 ≤ a && a < 0x31000 && a % 0x100 = R.D_LOADMON then 0xFFFFFFFF
  else 0

/-- The eye of a bit: the length of its longest error-free run of taps and the centre of that run, from a free value `v`;
`least` taps at least, or exactly those of the worst bit. -/
def eyeWord (least v : Nat) (worst : Bool) : Nat :=
  let n := if worst then least else least + v % (65 - least)
  5 * n + (v / 128 % (65 - n) + n / 2) % 64 * 2 ^ 16

/-- What the last training of the selected FSP that passed found of the selection (R274, Table 12-13), 0 before one: `kind`
0 read eye, 1 write eye, 2 CA eye, by bit; 3 Vref by channel and rank; 4 WCK, its phase by channel and rank, the write phase
by byte. -/
def trainView (s : Block) (kind : Nat) : Nat :=
  let t := Tbl.get (fun _ => ((0 : Nat), (0 : Nat), (0 : Nat))) s.dramc.trained (getF s F.DRAMC_TRAIN_SEL_FSP)
  let b := getF s F.DRAMC_TRAIN_SEL_BIT
  let at' := 32 * getF s F.DRAMC_TRAIN_SEL_CH + 64 * getF s F.DRAMC_TRAIN_SEL_RANK
  let v := fun (k : Nat) => (Config.freeValue (t.1 + k)).toNat
  if t.1 = 0 then 0
  else if kind = 3 then v (768 + at') % 2 ^ 32
  else if kind = 4 then v (1024 + at') % 64 + v (1280 + at' + b / 8) % 64 * 2 ^ 8
  else if decide (22 < b) || (kind < 2 && decide (16 ≤ b)) || (kind = 2 && decide (b < 16)) then 0
  else eyeWord (min 64 ((t.2.1 + 4) / 5)) (v (kind * 256 + b + at')) (kind * 256 + b + at' == t.2.2)

/-- Word `i` of the PATROL log entry that LOG_SEL names. -/
def logView (s : Block) (i : Nat) : Nat :=
  (Tbl.get (fun _ => (0 : Word)) s.sys.log (4 * getF s F.PATROL_LOG_SEL_ENTRY + i)).toNat

/-- The handle that HSEL names. -/
def handleView (s : Block) : Nat :=
  let h := handle s (getF s F.POWER_HSEL_HANDLE)
  if h.st = 0 then 0 else h.st * 2 ^ 30 + b2n h.bg * 2 ^ 29 + h.ledger * 2 ^ 16 + h.amount

/-- VMON.LOW: the supplies below their thresholds. -/
def vmonView (s : Block) : Nat := ((List.range 10).map (fun i => b2n (supplyLow s i) * 2 ^ i)).foldl (· + ·) 0

/-- ms to the watchdog's expiry. -/
def wdogView (s : Block) : Nat :=
  if s.aon.wdogAt = 0 then 0 else (s.aon.wdogAt - 1 - s.now + 999999) / 1000000

/-- The copy flips of a register and side: the bits in which copy `c` differs from the majority (R320). -/
def flipBits (s : Block) (a c : Nat) (shadow : Bool) : Nat :=
  (s.flips.filter (fun f => f.adr == a && f.copy == c && f.shadow == shadow)).foldl (fun n f => n ||| 2 ^ f.bit) 0

/-- TMR_COPY `c` of the selection (R320). -/
def copyView (s : Block) (c : Nat) : Nat :=
  let a := 4 * getF s F.GLOBAL_TMR_SEL_WADDR
  let sh := flag s F.GLOBAL_TMR_SEL_SHADOW
  match regDef a with
  | none => 0
  | some d =>
    let w := if sh then (getP s a).toNat &&& (d.tmr &&& d.buf) else (getW s a).toNat &&& d.tmr
    w ^^^ flipBits s a c sh

/-- The registers whose value is computed when they are read, by byte address. -/
def liveView (s : Block) (a : Nat) : Option Nat :=
  if 0x6000 ≤ a && a < 0x7000 then calView s (a % 0x1000)
  else if 0xB000 ≤ a && a < 0xC000 then mmuView s (a % 0x1000)
  else
    match a with
    | 0x08 => some (Config.serial.toNat % 2 ^ 32)
    | 0x0C => some (Config.serial.toNat / 2 ^ 32)
    | 0x70 => some (copyView s 0)
    | 0x74 => some (copyView s 1)
    | 0x78 => some (copyView s 2)
    | 0x201C => some (rtCountView s)
    | 0x3020 => some (unsigned 32 (steerRem s (slewWord s)))
    | 0x3024 => some (glideTime s)
    | 0x3090 | 0x30B0 | 0x30D0 | 0x30F0 =>
      let l := (a - 0x3090) / 0x20
      if loopState s l = 3 then some (Tbl.get (fun _ => 0) s.clock.tune l) else none
    | 0x3034 => some (traceTime s)
    | 0x4058 => some (handleView s)
    | 0x4070 => some (vmonView s)
    | 0x5018 => some (logView s 0)
    | 0x501C => some (logView s 1)
    | 0x5020 => some (logView s 2)
    | 0x5024 => some (logView s 3)
    | 0x8010 => some (s.aon.frac * 32768 / 1000000000)
    | 0x8024 => some (wdogView s)
    | 0x9028 => some (s.sysTime % 2 ^ 32)
    | 0x902C => some (s.sysTime / 2 ^ 32)
    | 0x9030 => some s.gyden.frac
    | 0x9044 => some (getF s F.GYDEN_GEVLVL_APPLIED + drivenView s * 2 ^ 8)
    | 0x9084 => some (nodeDlyView s)
    | 0x9088 => some (nodeStatView s)
    | 0xA09C => some (trainView s 0)
    | 0xA0A0 => some (trainView s 1)
    | 0xA0A4 => some (trainView s 2)
    | 0xA0A8 => some (trainView s 3)
    | 0xA0AC => some (trainView s 4)
    | _ => if 0xA0 ≤ a && a < 0xC0 then some (s.nvm.keyHash.getD ((a - 0xA0) / 4) 0).toNat else none

/-- The mirror that stands for the register at `a` while the link to its unit's region is lost (R314). -/
def mirrorOf (s : Block) (a : Nat) : Option LinkMirror :=
  if inRegion a then s.hostIf.mirrors.find? (fun m => m.rgn == regionOf (blockUnit a)) else none

/-- The programmed word and the word in force that a read sees. -/
def seenWords (s : Block) (a : Nat) : Nat × Nat :=
  match mirrorOf s a with
  | some m => ((Tbl.get resetWord m.regs a).toNat, (Tbl.get resetWord m.act a).toNat)
  | none => ((getP s a).toNat, (getW s a).toNat)

/-- The stored word a read returns: the shadow of buffered fields, or, with the master's RDACT, their active value. -/
def storedView (s : Block) (rdact : Bool) (a : Nat) : Nat :=
  let w := seenWords s a
  if rdact then
    match regDef a with
    | some d => mergeMask w.1 w.2 d.buf
    | none => w.1
  else w.1

/-- REFMON: the offset of the reference in ppb as measured, beyond 100 ppm only while the reference is lost (R245). -/
def refmonView (s : Block) (k : Nat) : Nat :=
  if s.clock.refLost then freeAt s k 32 else unsigned 32 ((freeAt s k 64 % 200001 : Nat) - 100000)

/-- What register `a` shows; `k` numbers the free value of this read. A reserved location shows 0 (R315). -/
def viewWord (s : Block) (rdact : Bool) (k a : Nat) : Nat :=
  match regDef a with
  | none => 0
  | some _ =>
    match (liveView s a).orElse (fun _ => dramLoad s (freeAt s k 64) a), measureBound a with
    | some v, _ => v % 2 ^ 32
    | none, some n => freeAt s k 64 % n
    | none, none =>
      if a = R.CLOCK_BACKUP_ERR then backupErr s k
      else if a = R.CLOCK_REFMON then refmonView s k
      else mergeMask (storedView s rdact a) (freeAt s k 32) (measuredMask a)

/-- The higher words that a read of a latching low word takes (R321 and the block maps): their addresses. -/
def latchSet (a : Nat) : List Nat :=
  if [0x08, 0x3018, 0x3038, 0x4068, 0x5018, 0x6018, 0x6020, 0x6068, 0x9090, 0xA088, 0xB078].contains a then [a + 4]
  else if a = 0x8008 || a = 0x9028 then [a + 4, a + 8]
  else if 0x2100 ≤ a && a < 0x2180 && a % 0x10 = 4 && (regDef a).isSome then [a + 4]
  else if 0x10000 ≤ a && a < 0x11000 && (a % 0x100 = R.SEQ_FRAME_LO || a % 0x100 = R.SEQ_PSTART_LO) then [a + 4]
  else if 0x12000 ≤ a && a < 0x12400 && (a % 0x100 = R.TRACK_TICK_LO || a % 0x100 = R.TRACK_TREC_TIME_LO ||
      a % 0x100 = R.TRACK_TREC_FRAME_LO) then [a + 4]
  else if ((0x20000 ≤ a && a < 0x23000) || (0x30000 ≤ a && a < 0x31000)) && a % 0x100 = R.P_SYN_FREQ_LO then [a + 4]
  else []

/-- The latching low word of a higher word. -/
def lowOf (a : Nat) : Option Nat :=
  if 4 ≤ a && (latchSet (a - 4)).contains a then some (a - 4)
  else if 8 ≤ a && (latchSet (a - 8)).contains a then some (a - 8)
  else none

end Sys2Proof.Machine
end

