-- ==== Sys2Proof/Machine/HostCmd.lean ====
section
/-! DEFINITION. The general commands (R298, R299), ABORT (R297), the steps of stepped commands (R292 to R296), and the
happenings of the command path (R288, R291, R293 to R295). -/

namespace Sys2Proof.Machine

/-! ## NOP, IDENTIFY, GET_STATUS -/

/-- NOP (0x00): parameter words ignored, any LEN. -/
def effNop (h : Hdr) (p : List Word) (s : Block) : Out :=
  runCmd s h 0x00 p [] (fun _ => true) [] (fun s _ => .okay s)

/-- The identity block (Table 13-3). -/
def identity (s : Block) : List Word :=
  [0x4816, getW s R.GLOBAL_STEPPING, getW s R.HOSTCMD_UE_VER, getW s R.HOSTCMD_UE_SLOT,
    Word.ofNat Config.serial.toNat, Word.ofNat (Config.serial.toNat / 2 ^ 32), getW s R.GYDEN_CONFIG] ++
    List.replicate 9 0

/-- IDENTIFY's check and effect. -/
def identifyBody (h : Hdr) (s : Block) (p : List Word) : CmdRes :=
  if !destOk s h (pw64 p 1) 64 then .fail s Sts.badParam
  else .done (toHost s h (pw64 p 1) (wordsBytes (identity s))) Sts.ok 0 1 (getW s R.GLOBAL_STEPPING).toNat

/-- IDENTIFY (0x01). -/
def effIdentify (h : Hdr) (p : List Word) (s : Block) : Out :=
  runCmd s h 0x01 p [] (· == 3) [0xFFFFFFFF, 0xFFFFFFFF] (identifyBody h)

/-- What GET_STATUS reads: `n` registers from byte address `a`, in one cycle, latching and advancing nothing; WIN_DATA is a
read of the microengine, requester 8. -/
def snapshot (s : Block) (a n : Nat) : List Word :=
  (List.range n).map (fun k => Word.ofNat (if a + 4 * k < 0x40000 then viewWord s false k (a + 4 * k) else 0))

/-- The maximum-hold fields of `n` registers from byte address `a` as they stand now (R263). -/
def observeAll (s : Block) (a n : Nat) : Block := forEach (List.range n) s (fun s k => observe s (a + 4 * k))

/-- GET_STATUS's checks and effect. -/
def getStatusBody (h : Hdr) (s : Block) (p : List Word) : CmdRes :=
  let n := pb p 2 4 0
  if n = 0 || decide (16 < n) || !destOk s h (pw64 p 3) (4 * n) then .fail s Sts.badParam
  else
    let win := decide (pw p 1 ≤ R.MMU_WIN_DATA) && decide (R.MMU_WIN_DATA < pw p 1 + 4 * n)
    let s := observeAll (if win then winRequest s 8 0 0 else s) (pw p 1) n
    let l := snapshot s (pw p 1) n
    let s := toHost s h (pw64 p 3) (wordsBytes l)
    .done { s with free := s.free + n } Sts.ok 0 1 (l.headD 0).toNat

/-- GET_STATUS (0x02). -/
def effGetStatus (h : Hdr) (p : List Word) (s : Block) : Out :=
  runCmd s h 0x02 p [] (· == 5) [0x3FFFC, 0x1F, 0xFFFFFFFF, 0xFFFFFFFF] (getStatusBody h)

/-! ## ABORT (R297) -/

/-- The commands that an ABORT names. -/
def abortNames (s : Block) (p : List Word) : List Job :=
  s.cmd.jobs.filter (fun j => j.h.ring == pb p 1 1 0 && (pb p 1 16 16 == 1 || j.h.tag == pb p 1 15 8))

/-- The commands whose work is done in later steps (Table 13-2, kind S); another in progress awaits a free place among
the 64 that may wait. -/
def steppedOps : List Nat := [0x10, 0x11, 0x13, 0x21, 0x22, 0x34, 0x44, 0x50, 0x51, 0x58, 0x59, 0x5A, 0x60, 0x61, 0x7E]

/-- One abortable command ended: a waiting one ABORTED; one in progress PARTIAL where a step of it has committed, as the
one step of a command that awaits a place among those that wait has. -/
def abortJob (s : Block) (j : Job) : Block :=
  let s := incF s F.HOSTCMD_ABORTS_COUNT
  let done := !steppedOps.contains j.op || decide (0 < j.steps)
  let part := match s.cal.run with
    | some r => if j.op = Op.calRun then cutStatus r == Sts.partially else done
    | none => done
  cutJob s j (if decide (j.phase = .inProgress) && part then Sts.partially else Sts.aborted)

/-- The header of the packet `w` words before TAIL of ring `r`: as the window holds it, or, where the ring lies in host
memory, the next of those the step gives; a free value beyond them, with a length that the words left admit (log entry 7). -/
def droppedHeader (s : Block) (r w : Nat) (l : List Word) : Nat :=
  if inWindow s r then (ringWord s r (sqAvail s r - w)).toNat
  else
    match l with
    | x :: _ => x.toNat
    | [] =>
      let v := freeNat s 32
      v - natBits v 15 8 * 2 ^ 8 + (1 + v % min 64 w) * 2 ^ 8

/-- The packets between HEAD and TAIL, of `w` words, each ABORTED; the last ends at TAIL at the latest. Answers how many
they are. -/
def dropPackets (r : Nat) : Nat → Nat → List Word → Block → Block × Nat
  | 0, _, _, s => (s, 0)
  | k + 1, w, l, s =>
    if w = 0 then (s, 0)
    else
      let v := droppedHeader s r w l
      let n := max 1 (natBits v 15 8)
      let t := if inWindow s r || !l.isEmpty then s else useFree s
      let t := incF t F.HOSTCMD_ABORTS_COUNT
      let t := complete t ⟨⟨r, natBits v 23 16, natBits v 7 0, n⟩, natBits v 31 24, Sts.aborted, 0, 0, 0⟩
      let a := dropPackets r k (w - n) (l.drop 1) t
      (a.1, a.2 + 1)

/-- Ring `r`'s packets between HEAD and TAIL removed; `l`: their headers, where the ring lies in host memory. The first that
the microengine has read already stands as read. -/
def dropRing (s : Block) (r : Nat) (l : List Word) : Block × Nat :=
  let w := sqAvail s r
  let l := match nextHeader s r with
    | some x => x :: l.drop 1
    | none => l
  let a := dropPackets r w w l s
  (setF (clearPeek a.1 r) (sqF r F.HOSTCMD_SQ0_HEAD_IDX) (getF s (sqF r F.HOSTCMD_SQ0_TAIL_IDX)), a.2)

/-- ABORT's effect. -/
def abortBody (headers : List Word) (s : Block) (p : List Word) : CmdRes :=
  let all := pb p 1 16 16 = 1
  let l := abortNames s p
  notInBoot s <|
    if !all && l.any (fun j => !abortable j.op) then .fail s Sts.state
    else
      let l := l.filter (fun j => abortable j.op)
      let s := l.foldl abortJob s
      let a := if all then dropRing s (pb p 1 1 0) headers else (s, 0)
      .done a.1 Sts.ok 0 1 (l.length + a.2)

/-- ABORT (0xF0). -/
def effAbort (h : Hdr) (p : AbortPacket) (s : Block) : Out :=
  match runCmd s h 0xF0 p.words [] (· == 2) [0x1FF03] (abortBody p.headers) with
  | .next t => .next (settleJobs t)
  | o => o

/-! ## Steps of stepped commands -/

/-- A later step of a command in progress, by opcode; a command that only awaits something takes none. -/
def jobStep (s : Block) (j : Job) : Block :=
  match j.op with
  | 0x10 => mapContinue s j
  | 0x13 => mapContinue s j
  | 0x11 => freeContinue s j
  | 0x21 => stepsContinue s j
  | 0x22 => armContinue s j
  | 0x34 => loadContinue s j
  | 0x44 => readoutContinue s j
  | 0x50 => calRunContinue s j
  | 0x51 => commitContinue s j
  | 0x58 => nvmReadContinue s j
  | 0x59 => txContinue s j
  | 0x5A => auditContinue s j
  | 0x60 => trainContinue s j
  | 0x61 => freqContinue s j
  | 0x7E => txContinue s j
  | _ => s

/-- The command in progress of a ring takes its next step. -/
def stepJob (s : Block) (j : Job) : Block :=
  if steppedOps.contains j.op then
    let s := tookStep s j.h.ring
    let s := setF (setF s F.HOSTCMD_CUR_VALID 1) F.HOSTCMD_CUR_OPCODE j.op
    let s := setF (setF s F.HOSTCMD_CUR_TAG j.h.tag) F.HOSTCMD_CUR_RING j.h.ring
    let s := { s with cmd := { s.cmd with cur := j.id, unseen := 0 :: s.cmd.unseen.filter (· == 1) } }
    let k := { j with later := j.later + 1 }
    jobStep (setF (putJob s j k) F.HOSTCMD_CUR_STEPS_COUNT (k.later + 1)) k
  else if (waitingJobs s).length < 64 then
    setJobs s (s.cmd.jobs.map (fun x => if x = j then { x with phase := .waiting } else x))
  else s

/-- The next packet of ring `r` has header `w`: one with an unassigned opcode completes BAD_OPCODE (R287); one with an
assigned opcode is taken as a command of its own. -/
def peekPacket (s : Block) (r : Nat) (w : Word) : Block :=
  let h : Hdr := ⟨r, bits w 23 16, bits w 7 0, bits w 15 8⟩
  let op := bits w 31 24
  if assignedOps.contains op || h.len = 0 || decide (64 < h.len) || !packetReady s h || !headerHeld s r w then s
  else complete (takePacket s h op) ⟨h, op, Sts.badOpcode, 0, 0, 0⟩

/-- The microengine reads the header `w` at HEAD of ring `r` in host memory, where a packet waits there. -/
def peekRing (s : Block) (r : Nat) (w : Option Word) : Block :=
  match w with
  | some w =>
    if ueServes s && flag s (sqF r F.HOSTCMD_SQ0_CFG_EN) && ringReadable s r && sqAvail s r != 0 &&
      (inProgress s r).isNone then notePeek s r w else s
  | none => s

/-- The step that ring `r` takes: its command in progress, unless it needs DRAM while the controller serves no request, or
its next packet, whose header is `w`. -/
def ringStep (s : Block) (r : Nat) (w : Option Word) : Block :=
  match inProgress s r, w with
  | some j, _ => if dramStalled s && dramOps.contains j.op then s else endReload (settleJobs (stepJob s j))
  | none, some w => peekPacket s r w
  | none, none => s

/-- A step runs on ring `r` that can meet an uncorrectable control-store word: a later step of its command in progress, or
the first of the packet whose header is `w`. -/
def stepRuns (s : Block) (r : Nat) (w : Option Word) : Bool :=
  match inProgress s r, w with
  | some j, _ => steppedOps.contains j.op
  | none, some w => headerHeld s r w && packetReady s ⟨r, bits w 23 16, bits w 7 0, bits w 15 8⟩
  | none, none => false

/-- STEP_BOUNDARY (R292 to R296): at a step boundary the ring that R293 names takes its step: its command in progress, or
its next packet. An uncorrectable control-store word met in it is repaired and the step run again; where the repair fails,
the microengine has halted (R305). -/
def effStepBoundary (ring : Nat) (v : StepView) (s : Block) : Out :=
  withIdx 4 ring <|
    let u := getF s F.HOSTCMD_STATE_UE_STATE
    let s := peekRing (settleJobs s) ring v.header
    let reload := u == 3 && (inProgress s ring).any (fun j => j.op == Op.microcodeReload)
    if !flag s F.HOSTCMD_CTRL_EN || !(reload || ((u == 2 || u == 4) && mayStep s ring)) then .next s
    else
      match v.bad with
      | none => .next (ringStep s ring v.header)
      | some (k, rd) =>
        withIdx 72 k <|
          if u = 2 && stepRuns s ring v.header then
            let t := storeRepair s k rd
            .next (if getF t F.HOSTCMD_STATE_UE_STATE = 2 then ringStep t ring v.header else settleJobs t)
          else .next (ringStep s ring v.header)

/-! ## Happenings of the command path -/

/-- RING_ERROR (R288): a header with LEN 0 or 65 to 255, a header that cannot be read, or a failed read of the ring
(`none`): of a ring in host memory a failed read over PCIe, which AER reports as well. -/
def effRingError (ring : Nat) (hdr : Option Word) (s : Block) : Out :=
  withIdx 4 ring <|
    let ready := ueServes s && flag s (sqF ring F.HOSTCMD_SQ0_CFG_EN) && sqAvail s ring != 0 &&
      (inProgress s ring).isNone
    match hdr with
    | none =>
      let s' := if inWindow s ring then s else { s with cmd := { s.cmd with aer := s.cmd.aer + 1 } }
      .next (if ready then ringErrorOp s' ring 0 0 else s)
    | some w =>
      let n := bits w 15 8
      .next (if ready && headerHeld s ring w && (n == 0 || decide (64 < n)) then ringErrorOp s ring (bits w 23 16) (bits w 31 24) else s)

/-- The first step of ring `r`'s next packet is abandoned: the packet is taken and completes INTERNAL with nothing changed.
Of a ring in host memory whose header has not been read the header is a free value (log entry 7). -/
def abandonFirst (s : Block) (r : Nat) : Block :=
  let v := match nextHeader s r with
    | some w => w.toNat
    | none => droppedHeader s r (sqAvail s r) []
  let h : Hdr := ⟨r, natBits v 23 16, natBits v 7 0, natBits v 15 8⟩
  let s' := if (nextHeader s r).isSome then s else useFree s
  if sqAvail s r = 0 || h.len = 0 || decide (64 < h.len) || !packetReady s h then s
  else complete (stepAbandoned (takePacket s' h (natBits v 31 24))) ⟨h, natBits v 31 24, Sts.internal, 0, 0, 0⟩
where
  /-- The flag, the count and PATROL's event of an abandoned step. -/
  stepAbandoned (s : Block) : Block :=
    patrolEvent (incF (cmdStatus s F.HOSTCMD_STATUS_STEP_WDOG) F.HOSTCMD_WDOG_COUNT) 8 0

/-- STEP_WDOG (R294): the step that ring `ring` has been given reaches 4,096 cycles: a later step of its command in
progress, or the first of its next packet. -/
def effStepWdog (ring : Nat) (s : Block) : Out :=
  withIdx 4 ring <|
    match inProgress s ring with
    | none => .next (settleJobs (abandonFirst s ring))
    | some j =>
      if !steppedOps.contains j.op then .next s
      else
        let s := incF (cmdStatus s F.HOSTCMD_STATUS_STEP_WDOG) F.HOSTCMD_WDOG_COUNT
        .next (endReload (settleJobs (patrolEvent (cutJob s j Sts.internal) 8 0)))

/-- JOURNAL_REPLAY (R295): a step of ring `ring` abandoned after its commit mark has its redo records applied. -/
def effJournalReplay (ring : Nat) (s : Block) : Out :=
  withIdx 4 ring <|
    let op := match inProgress s ring with
      | some j => some j.op
      | none => if flag s F.HOSTCMD_CUR_VALID && getF s F.HOSTCMD_CUR_RING == ring then
          some (getF s F.HOSTCMD_CUR_OPCODE) else none
    match op with
    | none => .next s
    | some o =>
      let s := incF (cmdStatus s F.HOSTCMD_STATUS_JRNL_REPLAY) F.HOSTCMD_JRNL_REPLAYS
      .next (recovered (setF s F.HOSTCMD_JRNL_OPCODE o))

/-- BG_MIN_EXPIRY (R293): BACKGROUND has gone BG_MIN µs without a step. -/
def effBgMinExpiry (s : Block) : Out :=
  let n := getF s F.HOSTCMD_ARB_BG_MIN
  let n := (if n = 0 then 1000 else n) * 1000
  .next (if ringWork s 3 && decide (s.cmd.bgLast + n ≤ s.now) then { s with cmd := { s.cmd with bgDue := true } }
    else s)

/-- IRQ_COALESCE_EXPIRY (R291): COAL_US µs have passed since the first entry not yet interrupted for. -/
def effIrqCoalesceExpiry (s : Block) : Out :=
  let us := getF s F.HOSTCMD_IRQ_CFG_COAL_US
  .next <|
    if us = 0 || s.cmd.coalCnt = 0 || decide (s.now < s.cmd.coalFrom + us * 1000) then s
    else
      let s := raise { s with cmd := { s.cmd with coalCnt := 0 } } F.HOSTCMD_IRQ_STAT_CPL_PEND
      msixRaise s (getF s F.HOSTCMD_IRQ_CFG_CPL_VEC)

/-! ## The meanings -/

/-- NOP (0x00), done to the block; the queue stays. -/
def execNop (h : Hdr) (p : List Word) (s : State) : Host.Outcome State Fault Refusal :=
  onBlock s (effNop h p)

/-- IDENTIFY (0x01), done to the block; the queue stays. -/
def execIdentify (h : Hdr) (p : List Word) (s : State) : Host.Outcome State Fault Refusal :=
  onBlock s (effIdentify h p)

/-- GET_STATUS (0x02), done to the block; the queue stays. -/
def execGetStatus (h : Hdr) (p : List Word) (s : State) : Host.Outcome State Fault Refusal :=
  onReads s (effGetStatus h p)

/-- ABORT (0xF0), done to the block; the queue stays. -/
def execAbort (h : Hdr) (p : AbortPacket) (s : State) : Host.Outcome State Fault Refusal :=
  onBlock s (effAbort h p)

/-- STEP_BOUNDARY (R292 to R296), done to the block; the queue stays. -/
def execStepBoundary (ring : Nat) (peek : StepView) (s : State) : Host.Outcome State Fault Refusal :=
  onReads s (effStepBoundary ring peek)

/-- RING_ERROR (R288), done to the block; the queue stays. -/
def execRingError (ring : Nat) (hdr : Option Word) (s : State) : Host.Outcome State Fault Refusal :=
  onBlock s (effRingError ring hdr)

/-- STEP_WDOG (R294), done to the block; the queue stays. -/
def execStepWdog (ring : Nat) (s : State) : Host.Outcome State Fault Refusal :=
  onBlock s (effStepWdog ring)

/-- JOURNAL_REPLAY (R295), done to the block; the queue stays. -/
def execJournalReplay (ring : Nat) (s : State) : Host.Outcome State Fault Refusal :=
  onBlock s (effJournalReplay ring)

/-- BG_MIN_EXPIRY (R293), done to the block; the queue stays. -/
def execBgMinExpiry (s : State) : Host.Outcome State Fault Refusal :=
  onBlock s (effBgMinExpiry)

/-- IRQ_COALESCE_EXPIRY (R291), done to the block; the queue stays. -/
def execIrqCoalesceExpiry (s : State) : Host.Outcome State Fault Refusal :=
  onBlock s (effIrqCoalesceExpiry)

end Sys2Proof.Machine
end

