-- ==== Sys2Proof/Machine/RegRules.lean ====
section
/-! DEFINITION. What a write of a register may change: the rules that a block sets for one of its registers (R4 and the
block maps), by byte address. -/

namespace Sys2Proof.Machine

/-- The address lies in a block of Table 14-3's P, D, A or LC blocks. -/
def inUnits (a : Nat) : Bool := decide (0x20000 ≤ a) && decide (a < 0x40000)

/-- LOG2 of a ring of the words `new` of a CFG register: between `lo` and `hi`, `hiWin` in the window. -/
def log2Ok (new lo hi hiWin : Nat) : Bool :=
  decide (lo ≤ natBits new 12 8) && decide (natBits new 12 8 ≤ (if new.testBit 1 then hiWin else hi))

/-- The bits of `mask` that a write of a ring register may change (R286, R290): BASE, size and place not while EN is 1,
a size out of range not at all, TAIL not while EN is 0. -/
def ringMask (s : Block) (o old new mask : Nat) : Nat :=
  if 0x40 ≤ o && o < 0xC0 then
    let en := (getP s (0x1048 + (o - 0x40) / 0x20 * 0x20)).toNat.testBit 0
    match o % 0x20 with
    | 0x00 => if en then 0 else mask
    | 0x04 => if en then 0 else mask
    | 0x08 => if old.testBit 0 then mask &&& 1 else if log2Ok new 6 16 14 then mask else 0
    | 0x10 => if en then mask else 0
    | _ => mask
  else if o = 0xC0 || o = 0xC4 then (if (getP s R.HOSTCMD_CQ_CFG).toNat.testBit 0 then 0 else mask)
  else if o = 0xC8 then
    if old.testBit 0 then mask &&& 1 else if log2Ok new 4 16 12 then mask else 0
  else mask

/-- A reserved code of the EVENT block: GLSEL's 26 to 31, TMRn.CFG's BUSY and MODE 3, sources 192 to 255 in SRCSEL and in
TSCAPn.CFG. -/
def eventBad (o new : Nat) : Bool :=
  (o == 0x44 && decide (192 ≤ natBits new 7 0)) ||
    (decide (0x100 ≤ o) && decide (o < 0x180) && o % 0x10 == 0 && decide (192 ≤ natBits new 7 0)) ||
    (o == 0x38 && (List.range 4).any (fun i => decide (26 ≤ natBits new (8 * i + 4) (8 * i)))) ||
    (decide (0x80 ≤ o) && decide (o < 0x100) && o % 0x10 == 0 && (natBits new 4 3 == 3 || natBits new 2 1 == 3))

/-- A value that a register of the CLOCK block does not take: LOCK_PIN's code 3, a row that Table 11-2 has not, LCFG out
of range, a divider that PLL_CONFIG alone sets. -/
def clockBad (o new : Nat) : Bool :=
  (o == 0x54 && decide (9 ≤ natBits new 3 0)) ||
  (o == 0x50 && (natBits new 1 0 == 3 || natBits new 5 4 == 3)) ||
    (decide (0x80 ≤ o) && decide (o < 0x100) &&
      ((o % 0x20 == 0 && (decide (natBits new 11 8 < 4) || natBits new 2 0 == 0)) ||
        (o % 0x20 == 8 && (o == 0x88 || o == 0xE8))))

/-- A value that a register of the DRAMC block does not take. -/
def dramcBad (o new : Nat) : Bool :=
  (o == 0x00 && natBits new 9 8 == 3) ||
    (o == 0x18 && (natBits new 7 0 == 0 || decide (168 < natBits new 7 0))) ||
    (o == 0x98 && decide (23 ≤ natBits new 4 0)) ||
    (o == 0xB0 && (decide (natBits new 15 0 < 10) || decide (1000 < natBits new 15 0)))

/-- The ACTION bits of CLSc_CFG that class `c` takes (Table 16-7). -/
def actionMask (c : Nat) : Nat :=
  match c with
  | 0 => 0x9000000
  | 1 => 0xE000000
  | 2 => 0xE000000
  | 6 => 0x8000000
  | _ => 0xC000000

/-- The bits of `mask` that a write in the PATROL block may change. -/
def patrolMask (o new mask : Nat) : Nat :=
  if o = 0x3C then (if 9 ≤ natBits new 27 24 then 0 else mask)
  else if 0x40 ≤ o && o < 0xD0 && o % 0x10 = 0 then mask &&& (0xFFFFFF ||| actionMask ((o - 0x40) / 0x10))
  else mask

/-- The bits of `mask` that a write in the GLOBAL block may change: an increment 3, and a copy 3, leave the register
unchanged. -/
def globalMask (o new mask : Nat) : Nat :=
  if (o = 0x48 || o = 0x54) && new % 4 = 3 then 0
  else if o = 0x7C && natBits new 5 4 = 3 then 0
  else mask

/-- The bits of `mask` that a write of sequencer `n`'s register at `o` may change, with the flag of R125. -/
def seqMask (s : Block) (n o new mask : Nat) : Block × Nat :=
  let held := [0x0C, 0x10, 0x14, 0x30, 0x34, 0x38].contains o && getF s (qF n F.SEQ_STATE_SSTATE) != 0
  let bad := o == 0 && (natBits new 5 4 == 3 || natBits new 1 0 == 3)
  if held || bad then (raise s (qF n F.SEQ_STATUS_CFG_IGNORED), 0) else (s, mask)

/-- Unit `u`'s SKEW is held by a timing calibration (R348). -/
def skewHeld (s : Block) (u : Nat) : Bool :=
  match s.cal.run with
  | some r => runItem r.p 2 && r.busy.any (fun b => b.1 == u)
  | none => false

/-- The bits of `mask` that a write of `new` over `old` at byte address `a` may change, and the state with the flags
that a refusal sets. -/
def ruleMask (s : Block) (a old new mask : Nat) : Block × Nat :=
  let o := a % 0x1000
  if a < 0x1000 then (s, globalMask o new mask)
  else if a < 0x2000 then (s, ringMask s o old new mask)
  else if a < 0x3000 then (s, if eventBad o new then 0 else mask)
  else if a < 0x4000 then (s, if clockBad o new then 0 else mask)
  else if 0x5000 ≤ a && a < 0x6000 then (s, patrolMask o new mask)
  else if a = R.CAL_SEL then (s, if 104 ≤ natBits new 6 0 then 0 else mask)
  else if 0x8040 ≤ a && a < 0x8080 then
    (s, if a % 8 = 0 && decide (2 ≤ natBits new 2 1) then 0 else mask)
  else if 0x9000 ≤ a && a < 0xA000 then
    (s, if o = 0x38 && slaveNode s then mask - (mask &&& 0xFF) else mask)
  else if 0xA000 ≤ a && a < 0xB000 then (s, if dramcBad o new then 0 else mask)
  else if 0x10000 ≤ a && a < 0x11000 then seqMask s ((a - 0x10000) / 0x100) (a % 0x100) new mask
  else if inUnits a then
    let u := blockUnit a
    if (u < 64 && a % 0x100 = R.P_SKEW || 96 ≤ u && (a % 0x100 = R.LC_SKEW_LO || a % 0x100 = R.LC_SKEW_HI)) && skewHeld s u then
      (s, 0)
    else unitMask s u (a % 0x100) old new mask
  else (s, mask)

/-- The bits of a register that always read 0, or that another operation stores: GO bits, keys, the window. -/
def notStored (a : Nat) : Nat :=
  if a = R.GLOBAL_KEY || a = R.GLOBAL_UPDATE || a = R.GLOBAL_IND_DATA || a = R.GLOBAL_IND_DATA_S then 0xFFFFFFFF
  else if a = R.GLOBAL_TMR_INJ || a = R.AON_CTRL then 1
  else if a = R.EVENT_CTRL then 3
  else if a = R.EVENT_SWEV || a = R.EVENT_RT_SEL then 0xFF
  else if a = R.PATROL_TEST then 0x80000000
  else if a = R.AON_RTC_LO || a = R.AON_RTC_HI || a = R.AON_WDOG_KICK || a = R.GYDEN_GDAT_CTRL ||
      a = R.MMU_WIN_DATA then 0xFFFFFFFF
  else if 0x12000 ≤ a && a < 0x12400 && a % 0x100 = 0 then 1
  else 0

end Sys2Proof.Machine
end

