-- ==== Sys2Proof/Machine/Indirect.lean ====
section
/-! DEFINITION. The indirect pairs (R324, R325, Table 14-1): the word at an address of a target, the prefetch, and the
accesses of IND_DATA. -/

namespace Sys2Proof.Machine

/-- A field of pair `p`: 0 PCIe's IND_ADDR, IND_DATA and IND_STAT, 1 SPI's. -/
def indF (p : Nat) (f : Fld) : Fld := f.at (0xC * p)

/-- The target and the byte address in it. -/
def indTgt (s : Block) (p : Nat) : Nat := getF s (indF p F.GLOBAL_IND_ADDR_TGT)
def indAdr (s : Block) (p : Nat) : Nat := getF s (indF p F.GLOBAL_IND_ADDR_ADDR) * 4

/-- The last byte address of a target's span. -/
def indSpan (t : Nat) : Nat :=
  match t with
  | 2 => 0x3FFFFFF
  | 3 => 0x4FF
  | 4 => 0xFFFFFF
  | 5 => 0x303FFF
  | _ => 0xFFFFF

/-- The unit whose record on die `d` holds offset `o`; none for a register of the whole die. -/
def recordUnit (d o : Nat) : Option Nat :=
  let slot := fun k => if k < 24 then d * 24 + k else 48 + d * 8 + (k - 24)
  if 0x40000 ≤ o && o < 0x40300 then some (slot ((o - 0x40000) / 0x20))
  else if 0x50000 ≤ o && o < 0x50800 then some (slot ((o - 0x50000) / 0x40))
  else if 0x60100 ≤ o && o < 0x60300 then some (slot ((o - 0x60100) / 0x10))
  else none

/-- Region `i`'s die link is lost. -/
def linkGone (s : Block) (i : Nat) : Bool := (getF s F.PATROL_RGN_STATE_LINK_LOST).testBit i

/-- The target cannot be reached (R325). -/
def indLost (s : Block) (t a : Nat) : Bool :=
  if t < 2 then
    match recordUnit t a with
    | some u => linkGone s (regionOf u)
    | none => linkGone s (2 * t) && linkGone s (2 * t + 1)
  else t == 4 && dramBad s

/-- Why an access of address `a` of target `t` fails, as IND_STAT.REASON (R325); 0 where it does not. -/
def indFault (s : Block) (t a : Nat) : Nat :=
  if 6 ≤ t then 5 else if indSpan t < a then 3 else if indLost s t a then 4 else 0

/-- The pair's ERR and REASON, and STATUS.IND_ERR. -/
def indError (s : Block) (p reason : Nat) : Block :=
  raise (raise (setF s (indF p F.GLOBAL_IND_STAT_REASON) reason) (indF p F.GLOBAL_IND_STAT_ERR)) F.GLOBAL_STATUS_IND_ERR

/-! ## Table banks -/

/-- The unit, bank, slot and offset of a correction window's address (R41, R337); none for another address. A bank takes
up its whole half of the window, with the bytes that no slot or field uses. -/
def bankPlace (a : Nat) : Option (Nat × Nat × Nat × Nat) :=
  if a < 0x60000 then
    let w := a / 0x1000
    let u := if w < 48 then w else if w < 64 then 48 + (w - 48) else 64 + (w - 64)
    let k := a % 0x800 / 0x100
    some (u, a % 0x1000 / 0x800, k, a % 0x100)
  else none

/-- The entry of a sine bank at address `a` of the table banks: die, bank, index (R164). -/
def sinePlace (a : Nat) : Option (Nat × Nat × Nat) :=
  if decide (0x100000 ≤ a) && decide (a < 0x140000) then
    some ((a - 0x100000) / 0x20000, a % 0x20000 / 0x10000, a % 0x10000 / 4)
  else none

/-- A word of the table banks (R41, R164, R207, R337); an uncorrectable word of a sine bank as its substitute (R155). -/
def bankRead (s : Block) (a : Nat) : Nat :=
  if 0x300000 ≤ a then
    let t := (a - 0x300000) / 0x1000
    let x := a % 0x1000 / 0x80
    let o := a % 0x80
    if (cap s t).nst ≤ x then 0
    else if o = 0 then progWord s t x 0
    else if 0x10 ≤ o && o < 0x50 then progWord s t x (1 + (o - 0x10) / 4)
    else 0
  else
    match sinePlace a with
    | some (d, b, k) => unsigned 32 (sineEntry s d b k)
    | none => tableWord s a

/-- A host's read of a sine bank meets an uncorrectable word: TBL_STAT.UE and PATROL's class 0, as at a read for playback
(R155). -/
def sineMeet (s : Block) (t a : Nat) : Block :=
  match sinePlace a with
  | some (d, b, k) =>
    match (if t = 5 then sineUe s d b k else none) with
    | some x => patrolEvent (raise s (dieF d F.SYN_TBL_STAT_UE)) 0 (0x80000000 + x)
    | none => s
  | none => s

/-! ## The word at an address -/

/-- The word at address `a` of target `t`, as pair `p`'s next prefetch brings it: 0 where the access fails. -/
def indWord (s : Block) (p t a : Nat) : Nat :=
  if indFault s t a ≠ 0 then 0
  else
    match t with
    | 2 => nvmWord s a
    | 3 => (if a % 8 = 0 then routeSrc s (a / 8) else routeCfg s (a / 8)).toNat
    | 4 => natBits (stepAt s (a / 16)) (8 * (a % 16) + 31) (8 * (a % 16))
    | 5 => bankRead s a
    | _ =>
      let x := adieAdr t a
      let latch := if p = 0 then s.hostIf.phaseP else s.hostIf.phaseS
      let act := flag s (if p = 0 then F.GLOBAL_CTRL_RDACT_P else F.GLOBAL_CTRL_RDACT_S)
      if (regDef x).isNone then 0
      else if latch.1 = x then latch.2.toNat
      else storedView s act x

/-- A fetch of a PHASE_LO latches its PHASE_HI (R164). -/
def phaseLatch (s : Block) (p t a : Nat) : Block :=
  if t < 2 && decide (0x60100 ≤ a) && decide (a < 0x60300) && a % 0x10 == 0 && indFault s t a == 0 then
    let h := adieAdr t (a + 4)
    let w := (h, getP s h)
    let i := s.hostIf
    { s with hostIf := if p = 0 then { i with phaseP := w } else { i with phaseS := w } }
  else s

/-- Pair `p`'s next word comes from the step cache, and DRAM serves no request. -/
def indStalls (s : Block) (p : Nat) : Bool :=
  dramStalled s && flag s (indF p F.GLOBAL_IND_STAT_BUSY) && indTgt s p == 4

/-- The read of the step that a word of target 4 lies in, checked as one of the host's link (R258; DESIGN CHOICE, log entry
46). -/
def stepMeet (s : Block) (p t a : Nat) : Block := if t = 4 && indFault s t a = 0 then checkSteps s 6 p [a / 16] else s

/-- The addressed word arrives: IND_DATA holds it and BUSY clears. -/
def indArrive (s : Block) (p : Nat) : Block :=
  let t := indTgt s p
  let a := indAdr s p
  let s := stepMeet s p t a
  let v := if t = 4 && ueMet s then 0 else indWord s p t a
  let s := sineMeet (phaseLatch s p t a) t a
  setF (setF s (indF p F.GLOBAL_IND_DATA_DATA) v) (indF p F.GLOBAL_IND_STAT_BUSY) 0

/-- A prefetch of the addressed word begins. -/
def indFetch (s : Block) (p : Nat) : Block := setF s (indF p F.GLOBAL_IND_STAT_BUSY) 1

/-- The address advances by INC, modulo 2^28, and the new address is fetched. -/
def indAdvance (s : Block) (p : Nat) : Block :=
  let n := match getF s (indF p F.GLOBAL_IND_ADDR_INC) with
    | 1 => 4
    | 2 => 16
    | _ => 0
  indFetch (setF s (indF p F.GLOBAL_IND_ADDR_ADDR) ((indAdr s p + n) / 4)) p

/-- An access of pair `p` that finds it busy: over PCIe it waits for the word; over SPI it is refused (none). -/
def indReady (s : Block) (p : Nat) (m : Master) : Option Block :=
  if flag s (indF p F.GLOBAL_IND_STAT_BUSY) then
    match m with
    | .pcie => some (indArrive s p)
    | .spi => none
  else some s

/-- A read of IND_DATA: the state and the word, zero where the access fails, also for a reason that came after the prefetch
(R325). -/
def indRead (s : Block) (p : Nat) (m : Master) : Block × Nat :=
  match indReady s p m with
  | none => (indError s p 1, 0)
  | some s =>
    let e := indFault s (indTgt s p) (indAdr s p)
    let v := getF s (indF p F.GLOBAL_IND_DATA_DATA)
    if e = 0 then (indAdvance s p, v) else (indAdvance (indError s p e) p, 0)

/-- The bits that a write reaches at address `x` of an analogue die: its buffered and its W1C bits. -/
def adieBits (x : Nat) : Nat × Nat :=
  match regDef x with
  | some d => (d.buf, d.w1c)
  | none => (0, 0)

/-- A write to a record of an analogue die: the shadow of a buffered field with its group's UG_PEND (R75, R322), W1C bits
at once. A carrier mode or frequency that R75 does not take sets the unit's CFG_IGNORED. -/
def adieWrite (s : Block) (t a v : Nat) : Block :=
  let x := adieAdr t a
  let b := adieBits x
  let w := v &&& b.2
  let s := putM s x (w - (w &&& raisedNow s x)) 0
  match recordUnit t a with
  | none => s
  | some u =>
    if b.1 = 0 then s
    else if xcfgBad v then raise s (cfgIgnoredF u)
    else
      let s := unflip (putP s x b.1 v) x b.1 true
      let g := ugOf s u
      setF s ⟨R.GLOBAL_UG_PEND, g, g⟩ 1

/-- Why a write at address `a` of target `t` is refused, with REASON READ_ONLY: the location exists and is not writable;
false for a location that nothing assigns. -/
def indReadOnly (s : Block) (t a : Nat) : Bool :=
  match t with
  | 2 => nvmAssigned a
  | 3 => true
  | 4 => true
  | 5 =>
    match bankPlace a with
    | some (u, b, k, o) => decide (k < calSlots u) && bankMask o != 0 && (calBank s u == b || (calPend s u).isSome)
    | none => (sinePlace a).isSome || decide (0x200000 ≤ a) && decide (a < 0x204000) ||
        decide (0x300000 ≤ a) && (a % 0x80 == 0 || (decide (0x10 ≤ a % 0x80) && decide (a % 0x80 < 0x50)))
  | _ => (regDef (adieAdr t a)).isSome && adieBits (adieAdr t a) == (0, 0)

/-- The store of a write of IND_DATA. -/
def indStore (s : Block) (t a v : Nat) : Block :=
  if t < 2 then adieWrite s t a v
  else if t = 5 then
    match bankPlace a with
    | some (u, _, k, o) => if k < calSlots u then putBank s a (bankMask o) v else s
    | none => s
  else s

/-- A write of IND_DATA. -/
def indWrite (s : Block) (p : Nat) (m : Master) (v : Nat) : Block :=
  match indReady s p m with
  | none => indError s p 1
  | some s =>
    let t := indTgt s p
    let a := indAdr s p
    let e := indFault s t a
    let e := if e = 0 && indReadOnly s t a then 2 else e
    indAdvance (if e = 0 then indStore s t a v else indError s p e) p

end Sys2Proof.Machine
end

