-- ==== Sys2Proof/Machine/Idle.lean ====
section
/-! DEFINITION. The passing of time, which is what a step does when no happening waits (log entry 1), and the writes that
reach the ADIEs in it (R314). -/

namespace Sys2Proof.Machine

/-! ## Masters -/

/-- The number of a master, and of its indirect pair. -/
def masterNo (m : Master) : Nat :=
  match m with
  | .pcie => 0
  | .spi => 1

/-! ## Writes on the die links -/

/-- The oldest write on region `rgn`'s link acts at its unit, in all three copies of its triplicated bits (R319); a SLEW or
JERK acts from the first boundary after this instant (R85). -/
def linkDeliver (s : Block) (rgn : Nat) : Block :=
  match s.linkQ.find? (fun w => w.rgn == rgn) with
  | none => s
  | some w =>
    let old := (getW s w.adr).toNat
    let u := blockUnit w.adr
    let s := { s with linkQ := s.linkQ.erase w }
    let s := if w.adr < 0x38000 && (w.adr % 0x100 = R.P_SLEW || (decide (0x30000 ≤ w.adr) && w.adr % 0x100 = R.D_JERK)) then noteLims s u else s
    let s := unflip (putA s w.adr w.mask w.val) w.adr w.mask false
    if w.adr % 0x100 != 0 then s
    else if w.adr < 0x38000 then syncLatency s u
    else aCtrlChanged s (u - 64) old

/-- No write is longer on its link than 2 µs (R314): those that are act now. -/
def linkOverdue (s : Block) : Block :=
  forEach (s.linkQ.filter (fun w => decide (w.sent + 2000 ≤ s.now))) s (fun s w => linkDeliver s w.rgn)

/-! ## A cycle -/

/-- The RTC after 5 ns more: it counts while VAON is present and its oscillator runs (R377). -/
def rtcTick (s : Block) : Block :=
  if !s.aon.on || !flag s F.CLOCK_X32_STAT_RUN then s
  else
    let f := s.aon.frac + 5
    if f < 1000000000 then { s with aon := { s.aon with frac := f } }
    else
      let s := { s with aon := { s.aon with frac := f - 1000000000 } }
      set64 s F.AON_RTC_LO_SEC F.AON_RTC_HI_SEC (rtcSec s + 1)

/-- The snapshot of a selector written in the cycle that ends shows its object as it stands now (Table 14-2). -/
def endCycle (s : Block) : Block :=
  let s := if (writtenNow s R.MMU_DESC_SEL).isSome then descSnap s else s
  if (writtenNow s R.MMU_PTE_SEL).isSome then pteSnap s else s

/-- One core cycle of 5 ns passes: device time, SYSTIME while the part runs, the RTC. A CQ_HEAD written in the cycle
before counts now, and completions held are posted into the room it makes (R290, Table 13-6). The edges of strobes already
recorded come (R295, R323), and a write on a die link acts 2 µs after its access at the latest (R314). -/
def idleTick (s : Block) : Block :=
  let s := endCycle s
  let s := { s with now := s.now + 5, sysTime := if awake s then s.sysTime + 5 else s.sysTime }
  let due := s.strobes.any (fun t => decide (64 ≤ t.tgt) && decide (t.tgt < 96) && decide (t.due ≤ s.sysTime))
  let s := if due then settleJobs (commitEdges s) else s
  flushHeld 64 (rtcTick (linkOverdue (pendEdges s)))

end Sys2Proof.Machine
end

