-- ==== Sys2Proof/Machine/Registers.lean ====
section
/-! DEFINITION. Register accesses by the two host links (R311 to R326): the key lock, masked and W1C writes, buffered fields,
what a write of a register sets going, and reads that change state or have rules of their own. -/

namespace Sys2Proof.Machine

/-! ## Masters -/

/-- The link is up and the register file runs: over SPI, READY reads 1. -/
def linkReady (s : Block) (m : Master) : Bool :=
  awake s && (match m with
    | .pcie => s.boot.pcieUp
    | .spi => s.boot.spiReady)

/-- The cycle of 5 ns that device time is in, counted from 1 (R313). -/
def accessSlot (s : Block) : Nat := s.now / 5 + 1

/-- The register file takes an access of master `m` in this cycle: neither it nor a master that comes after it, PCIe before
SPI, has made one (R313). -/
def slotFree (s : Block) (m : Master) : Bool :=
  s.hostIf.slotAt != accessSlot s || decide (s.hostIf.slotBy < masterNo m + 1)

/-- The state in which an access of master `m` is performed: this cycle, or the next where this one is taken (R313, log entry
42). -/
def atSlot (s : Block) (m : Master) : Block := if slotFree s m then s else idleTick s

/-- Master `m`'s access takes its place in this cycle. -/
def takeSlot (s : Block) (m : Master) : Block :=
  { s with hostIf := { s.hostIf with slotAt := accessSlot s, slotBy := masterNo m + 1 } }

/-- The access is counted (ACC_PCIE, ACC_SPI). -/
def countAccess (s : Block) (m : Master) : Block :=
  incF (takeSlot s m) (match m with
    | .pcie => F.GLOBAL_ACC_PCIE_COUNT
    | .spi => F.GLOBAL_ACC_SPI_COUNT)

/-- The word a read returns to a master. -/
def setRead (s : Block) (m : Master) (v : Nat) : Block :=
  let i := s.hostIf
  { s with hostIf := match m with
    | .pcie => { i with readP := Word.ofNat v }
    | .spi => { i with readS := Word.ofNat v } }

/-- The master's RDACT bit. -/
def readActive (s : Block) (m : Master) : Bool :=
  flag s (match m with
    | .pcie => F.GLOBAL_CTRL_RDACT_P
    | .spi => F.GLOBAL_CTRL_RDACT_S)

/-- The address that a master's word access can have: aligned, in BAR0 or SPI's 24-bit space; PCIe's BAR2, the command
window, follows BAR0 as in SPI's map (DESIGN CHOICE, log entry 42). -/
def accessible (m : Master) (a : Nat) : Bool :=
  a % 4 == 0 && decide (a < (match m with
    | .pcie => 0x50000
    | .spi => 0x1000000))

/-- An access of a reserved location, or a partial write (R311, R315): recorded where RSVD_ERR is 1; over SPI, `err`
sets ERR (R387). -/
def reservedAccess (s : Block) (m : Master) (a : Nat) (err : Bool) : Block :=
  let s := if flag s F.GLOBAL_CTRL_RSVD_ERR then
      let s := setF (raise s F.GLOBAL_STATUS_RSVD_ACCESS) F.GLOBAL_RSVD_LAST_VALID 1
      setF (setF s F.GLOBAL_RSVD_LAST_MASTER (masterNo m)) F.GLOBAL_RSVD_LAST_WADDR (a / 4)
    else s
  if err && decide (m = .spi) then { s with boot := { s.boot with spiErr := true } } else s

/-! ## The key lock (R317, R318) -/

/-- The flag that shows a master's lock open. -/
def keyF (m : Master) : Fld :=
  match m with
  | .pcie => F.GLOBAL_KEYSTAT_UNL_P
  | .spi => F.GLOBAL_KEYSTAT_UNL_S

/-- KEY written. -/
def keyWritten (s : Block) (m : Master) (v : Nat) : Block :=
  if v = 0xC35A then setF s (keyF m) 1
  else
    let s := setF s (keyF m) 0
    if v = 0 then s else raise (incSat s F.GLOBAL_KEYFAIL_COUNT) F.GLOBAL_STATUS_KEY_FAIL

/-- A write of a guarded register: an open lock re-arms; a locked one refuses the keyed bits, recorded where one would
have changed. -/
def keyCheck (s : Block) (m : Master) (d : RegDef) (a old v : Nat) : Block :=
  if d.key = 0 then s
  else if flag s (keyF m) then setF s (keyF m) 0
  else if (old ^^^ v) &&& d.key = 0 then s
  else
    let s := setF (incSat s F.GLOBAL_LOCKED_WR_COUNT) F.GLOBAL_LOCKED_WR_WADDR (a / 4)
    raise s F.GLOBAL_STATUS_LOCKED_WR

/-- The bits that a master's write of the value `v` may write: those software writes, of a masked register those whose
mask bit is 1 (R316), less the keyed ones of a locked master. -/
def writable (s : Block) (m : Master) (d : RegDef) (a v : Nat) : Nat :=
  if a = R.GLOBAL_CTRL then (v >>> 16) &&& 7
  else if d.key ≠ 0 && !flag s (keyF m) then d.rw - (d.rw &&& d.key)
  else d.rw

/-! ## The store -/

/-- The registers that hold a maximum and that software writes (R312). -/
def maxHeld (a : Nat) : Bool :=
  [R.GLOBAL_MODE_SKEW, R.HOSTCMD_STEP_MAX, R.HOSTCMD_LAT_URG, R.POWER_PEAK_PKG, R.DRAMC_LAT_RT0, R.DRAMC_LAT_RT1,
    R.MMU_WALK_MAX].contains a

/-- Bits of a register written by a host: buffered bits in the shadow with UG_PEND of their group (R322), bits of a unit of
a region forwarded to its die, its W1C bits cleared at once, so that a condition that recurs shows again (R314), W1C bits
cleared but for those that the hardware raises in this cycle, and
maximum-hold fields compared again with the samples of this cycle (R326). -/
def storeBits (s : Block) (d : RegDef) (a v mask w1c : Nat) : Block :=
  let w1c := w1c - (w1c &&& raisedNow s a)
  let b := mask &&& d.buf
  let p := mask - b
  let s := unflip (unflip (putP s a mask v) a b true) a p false
  let s := if b = 0 then s
    else
      let g := ugOf s (blockUnit a)
      refreshStrobes (setF s ⟨R.GLOBAL_UG_PEND, g, g⟩ 1) (blockUnit a)
  if inRegion a then
    let s := putM s a w1c 0
    if p = 0 then s
    else { s with linkQ := s.linkQ ++ [⟨regionOf (blockUnit a), a, v, p, s.now⟩] }
  else
    let s := putM (putA s a p v) a w1c 0
    if maxHeld a then maxAgain s a else s

/-! ## What a write sets going -/

/-- The bit that TMR_INJ names inverted in its copy (R320): a second copy of one bit inverted leaves the third as the one
that differs. -/
def injectFlip (s : Block) : Block :=
  let a := 4 * getF s F.GLOBAL_TMR_SEL_WADDR
  let sh := flag s F.GLOBAL_TMR_SEL_SHADOW
  let b := getF s F.GLOBAL_TMR_INJ_BIT
  let c := getF s F.GLOBAL_TMR_INJ_COPY
  match regDef a with
  | none => s
  | some d =>
    if !(if sh then d.tmr &&& d.buf else d.tmr).testBit b || decide (2 < c) then s
    else
      let here := fun (f : Flip) => f.adr == a && f.shadow == sh && f.bit == b
      let rest := s.flips.filter (fun f => !here f)
      match s.flips.find? here with
      | none => { s with flips := rest ++ [⟨a, sh, c, b⟩] }
      | some f =>
        if f.copy = c then { s with flips := rest }
        else
          let s := { s with flips := rest ++ [⟨a, sh, 3 - c - f.copy, b⟩] }
          let v := (if sh then getP s a else getW s a).toNat ^^^ 2 ^ b
          if sh then putP s a (2 ^ b) v
          else if d.buf.testBit b then putA s a (2 ^ b) v
          else putM s a (2 ^ b) v

/-- Object `o` of PATROL class `c` exists (Table 16-7). -/
def patrolObject (c o : Nat) : Bool :=
  match c with
  | 0 => decide (o < poolEnd)
  | 1 => decide (o < 64)
  | 2 => decide (o < 64)
  | 3 => decide (o < 4)
  | 5 => decide (o < 10)
  | 6 => decide (o < 3)
  | _ => true

/-- TEST.GO (R372). The classes 4, 7 and 8 have one object, the package, whatever OBJECT holds. -/
def patrolTest (s : Block) : Block :=
  let c := getF s F.PATROL_TEST_CLASS
  let o := getF s F.PATROL_TEST_OBJECT
  let o := if c = 4 || c = 7 || c = 8 then 0 else o
  if c < 9 && patrolObject c o then settleJobs (patrolEvent s c o) else s

/-- LOCK_PIN written: each output newly forced is a PATROL event (R244). -/
def lockPinWritten (s : Block) (old : Nat) : Block :=
  let new := (getW s R.CLOCK_LOCK_PIN).toNat
  let s := forEach [0, 4] s (fun s i =>
    let n := natBits new (i + 1) i
    if n != 0 && n != natBits old (i + 1) i then settleJobs (patrolEvent s 4 0) else s)
  syncClock s

/-- WDOG_CFG written (R379). -/
def wdogWritten (s : Block) (old : Nat) : Block :=
  if !flag s F.AON_WDOG_CFG_EN then { s with aon := { s.aon with wdogAt := 0 } }
  else if old.testBit 0 then s
  else wdogStart s

/-- CMPk_CFG written: a disabled comparator is in no alarm. -/
def cmpWritten (s : Block) (k : Nat) : Block :=
  if flag s (cmpF k F.AON_CMP0_CFG_EN) then s else syncLevels (setF s (cmpBit F.AON_CMP_STATE_LEVEL k) 0)

/-- The RTC's load register (R377). -/
def rtcWritten (s : Block) (hi : Bool) (v mask : Nat) : Block :=
  let k := if hi then 32 else 0
  { s with aon := { s.aon with load := mergeMask s.aon.load (v <<< k) (mask <<< k) } }

/-- A submission ring enabled (R286); one disabled does not take a TAIL written in the same cycle (Table 13-6). -/
def sqCfgWritten (s : Block) (r old : Nat) : Block :=
  let tail := sqF r F.HOSTCMD_SQ0_TAIL_IDX
  if flag s (sqF r F.HOSTCMD_SQ0_CFG_EN) && !old.testBit 0 then
    setF (setF (clearPeek s r) (sqF r F.HOSTCMD_SQ0_HEAD_IDX) 0) tail 0
  else if !flag s (sqF r F.HOSTCMD_SQ0_CFG_EN) && old.testBit 0 then
    match writtenNow s tail.adr with
    | some w => setF s tail (bits w 15 0)
    | none => s
  else s

/-- The completion ring enabled (R290). -/
def cqCfgWritten (s : Block) (old : Nat) : Block :=
  if flag s F.HOSTCMD_CQ_CFG_EN && !old.testBit 0 then
    let w := s.hostIf.cycleWr.filter (fun x => x.1 != R.HOSTCMD_CQ_HEAD)
    let s := setF (setF { s with hostIf := { s.hostIf with cycleWr := w } } F.HOSTCMD_CQ_HEAD_IDX 0) F.HOSTCMD_CQ_TAIL_IDX 0
    flushHeld 64 { s with cmd := { s.cmd with phase := true } }
  else s

/-- Effects of a write in the GLOBAL block. -/
def globalEffect (s : Block) (m : Master) (a v mask : Nat) : Block :=
  match a with
  | 0x28 => keyWritten s m v
  | 0x38 =>
    let e := nextEdge s
    settleJobs (forEach (bitList v 16) s (fun s g => takeStrobe s g e (e + 4000) (masterNo m)))
  | 0x48 => if mask = 0 then s else indFetch s 0
  | 0x54 => if mask = 0 then s else indFetch s 1
  | 0x4C => indWrite s 0 m v
  | 0x58 => indWrite s 1 m v
  | 0x7C => if (v &&& mask).testBit 0 then injectFlip s else s
  | _ => s

/-- Effects of a write in the HOSTCMD block. -/
def hostcmdEffect (s : Block) (o old : Nat) : Block :=
  if o = 0xC8 then cqCfgWritten s old
  else if 0x40 ≤ o && o < 0xC0 && o % 0x20 = 8 then sqCfgWritten s ((o - 0x40) / 0x20) old
  else s

/-- Effects of a write in the EVENT block; a refused write has none (R4). -/
def eventEffect (s : Block) (o v : Nat) (acc : Bool) : Block :=
  if !acc then s
  else if o = 0x00 then
    let s := if v.testBit 0 then rtGoOp s else s
    if v.testBit 1 then rtClrOp s else s
  else if o = 0x0C then swevOp s v
  else if o = 0x10 then rtSelOp s v
  else if o = 0x38 then syncLevels s
  else if o = 0x44 then setF s F.EVENT_SRCCOUNT_COUNT 0
  else if 0x60 ≤ o && o < 0x80 then syncEvout s
  else if 0x80 ≤ o && o < 0x100 && o % 0x10 = 0 then tmrCfgWritten s ((o - 0x80) / 0x10)
  else if 0x100 ≤ o && o < 0x180 && o % 0x10 = 0 && v.testBit 8 then
    setF s (capF ((o - 0x100) / 0x10) F.EVENT_TSCAP0_CFG_DONE) 0
  else s

/-- Effects of a write in the always-on block; `acc` are the bits accepted. -/
def aonEffect (s : Block) (o old v acc : Nat) : Block :=
  if o = 0x00 then
    if (v &&& acc).testBit 0 then { s with aon := { s.aon with setIn := rtcSec s + 1 } } else s
  else if o = 0x08 then rtcWritten s false v acc
  else if o = 0x0C then rtcWritten s true v acc
  else if o = 0x1C then wdogWritten s old
  else if o = 0x20 then (if v = 0xA5C3 then wdogStart s else s)
  else if 0x40 ≤ o && o % 8 = 0 then cmpWritten s ((o - 0x40) / 8)
  else s

/-- What a write of register `a` sets going: `old` is what it held, `v` the value written, `acc` the bits accepted. -/
def writeEffect (s : Block) (m : Master) (a old v acc : Nat) : Block :=
  let o := a % 0x1000
  match a / 0x1000 with
  | 0x0 => globalEffect s m a v acc
  | 0x1 => hostcmdEffect s o old
  | 0x2 => eventEffect s o (v &&& acc) (acc != 0)
  | 0x3 => if o = 0x50 then lockPinWritten s old
      else if o = 0x10 && flag s F.CLOCK_STATE_STEERING then steerCount s old true
      else s
  | 0x4 => if o = 0x08 && acc != 0 then capWritten s
      else if o = 0x50 && v = 0 then maxF s F.POWER_PEAK_PKG_MW (ledgerTotal s 7)
      else s
  | 0x5 => if o = 0x08 then faultnWritten s
      else if o = 0x3C && (v &&& acc).testBit 31 then patrolTest s
      else s
  | 0x8 => aonEffect s o old v acc
  | 0x9 => if o = 0x1C && acc != 0 then trimWritten s else if o = 0x50 then gdatSendOp s v else s
  | 0xA => if 0x40 ≤ o && o < 0x70 then syncBankmap s
      else if o = 0x38 then seenServed s 0 else if o = 0x3C then seenServed s 1 else s
  | 0xB => if o = 0x20 then descSnap s
      else if o = 0x38 then pteSnap s
      else if o = 0x58 then winStep (winWrite (winWalk s) (linkSub m) (Word.ofNat v))
      else s
  | 0x12 => if o % 0x100 = 0 && v.testBit 0 then forceEvent s (o / 0x100) (nextEdge s) 0 else s
  | 0x3C => if o % 0x100 = 0 then syncLaneLat s else s
  | _ => s

/-! ## Writes -/

/-- A host's write of SYN_FREQ or SYN_PHASE of a unit is kept until a strobe takes it (R159). -/
def noteSyn (s : Block) (a : Nat) : Block :=
  let u := blockUnit a
  let syn := [R.P_SYN_FREQ_LO, R.P_SYN_FREQ_HI, R.P_SYN_PHASE]
  if !inRegion a || 64 ≤ u || !syn.any (fun o => unitBase u + o == a) || s.hostIf.synNew.contains a then s
  else { s with hostIf := { s.hostIf with synNew := s.hostIf.synNew ++ [a] } }

/-- The write of `v` to register `d` at address `a`. To a unit of a region whose link is lost it is dropped (R314). -/
def writeReg (s : Block) (m : Master) (d : RegDef) (a v : Nat) : Block :=
  if inRegion a && linkGone s (regionOf (blockUnit a)) then
    let s := if d.key = 0 then s else setF s (keyF m) 0
    raise s F.GLOBAL_STATUS_LINK_DROP
  else
    let old := (getP s a).toNat
    let rw := writable s m d a v
    let s := keyCheck s m d a old v
    let r := ruleMask s a old (mergeMask old v rw) rw
    let keep := r.2 - (r.2 &&& notStored a)
    let s := if 0x3C000 ≤ a && (a % 0x100 = R.LC_SKEW_LO || a % 0x100 = R.LC_SKEW_HI) then
        noteTaps r.1 (blockUnit a - 96) else r.1
    let s := storeBits (noteSyn (noteWrite s a) a) d a v keep (v &&& d.w1c)
    writeEffect s m a old v r.2

/-- A word written into the command window (R285, R311). -/
def windowWrite (s : Block) (a v : Nat) : Block :=
  { s with cmd := { s.cmd with window := putBytes s.cmd.window (a - 0x40000) (wordBytes (Word.ofNat v)) } }

/-- An access of master `m` that waits until DRAM serves requests again: of WIN_DATA, or over PCIe of the step cache behind a
pair that is busy (DESIGN CHOICE, log entry 46). -/
def accessStalls (s : Block) (m : Master) (a : Nat) : Bool :=
  let ind := fun (p : Nat) => a == R.GLOBAL_IND_DATA + 0xC * p && indStalls s p && decide (m = .pcie)
  dramStalled s && (a == R.MMU_WIN_DATA || ind 0 || ind 1)

/-- An access to write the word `v` at byte address `a` in the cycle that it has (R311 to R326). -/
def writeNow (m : Master) (a : Nat) (v : Word) (be : Nat) (s : Block) : Out :=
  if 0x40000 ≤ a && a < 0x50000 && be % 16 = 15 then .next (windowWrite (takeSlot s m) a v.toNat)
  else
    let s := countAccess s m
    if be % 16 ≠ 15 then .next (reservedAccess s m a true)
    else
      match regDef a with
      | some d => .next (if a < 0x40000 then writeReg s m d a v.toNat else s)
      | none => .next (reservedAccess s m a (decide (0x50000 ≤ a)))

/-- A write of `v` to byte address `a` with byte enables `be` by master `m`. -/
def writeAt (m : Master) (a : Nat) (v : Word) (be : Nat) (s : Block) : Out :=
  if !accessible m a then .fault .noSuchObject
  else if !linkReady s m || accessStalls s m a then .next s
  else writeNow m a v be (atSlot s m)

/-- REGISTER_WRITE (R311, R313 to R318, R322). -/
def effRegisterWrite (m : Master) (a : Nat) (v : Word) (be : Nat) (s : Block) : Out := writeAt m a v be s

/-- SQ_TAIL_WRITE (R286). -/
def effSqTailWrite (m : Master) (ring : Nat) (v : Word) (s : Block) : Out :=
  withIdx 4 ring <| writeAt m (0x1050 + 0x20 * ring) v 15 s

/-- SQ_CFG_WRITE (R286). -/
def effSqCfgWrite (m : Master) (ring : Nat) (v : Word) (s : Block) : Out :=
  withIdx 4 ring <| writeAt m (0x1048 + 0x20 * ring) v 15 s

/-- CQ_CFG_WRITE (R290). -/
def effCqCfgWrite (m : Master) (v : Word) (s : Block) : Out := writeAt m R.HOSTCMD_CQ_CFG v 15 s

/-- CQ_HEAD_WRITE (R290). -/
def effCqHeadWrite (m : Master) (v : Word) (s : Block) : Out := writeAt m R.HOSTCMD_CQ_HEAD v 15 s

/-- KEY (R317). -/
def effKey (m : Master) (v : Word) (s : Block) : Out := writeAt m R.GLOBAL_KEY v 15 s

/-- UPDATE (R323). -/
def effUpdate (m : Master) (v : Word) (s : Block) : Out := writeAt m R.GLOBAL_UPDATE v 15 s

/-- IND_ADDR_WRITE (R324): the master's own pair. -/
def effIndAddrWrite (m : Master) (v : Word) (s : Block) : Out :=
  writeAt m (R.GLOBAL_IND_ADDR + 0xC * masterNo m) v 15 s

/-- IND_DATA_WRITE (R324, R325). -/
def effIndDataWrite (m : Master) (v : Word) (s : Block) : Out :=
  writeAt m (R.GLOBAL_IND_DATA + 0xC * masterNo m) v 15 s

/-- IND_PREFETCH_DONE (R324): the word that the pair awaits arrives. -/
def effIndPrefetchDone (m : Master) (s : Block) : Out :=
  .next (if awake s && flag s (indF (masterNo m) F.GLOBAL_IND_STAT_BUSY) && !indStalls s (masterNo m) then
    indArrive s (masterNo m) else s)

/-- DESC_SEL_WRITE (R123). -/
def effDescSelWrite (m : Master) (v : Word) (s : Block) : Out := writeAt m R.MMU_DESC_SEL v 15 s

/-- PTE_SEL_WRITE (R123). -/
def effPteSelWrite (m : Master) (v : Word) (s : Block) : Out := writeAt m R.MMU_PTE_SEL v 15 s

/-- RT_SEL_WRITE (R213). -/
def effRtSelWrite (m : Master) (v : Word) (s : Block) : Out := writeAt m R.EVENT_RT_SEL v 15 s

/-- RT_GO (R213). -/
def effRtGo (m : Master) (s : Block) : Out := writeAt m R.EVENT_CTRL 1 15 s

/-- RT_CLR (R236). -/
def effRtClr (m : Master) (s : Block) : Out := writeAt m R.EVENT_CTRL 2 15 s

/-- SWEV (R219). -/
def effSwev (m : Master) (v : Word) (s : Block) : Out := writeAt m R.EVENT_SWEV v 15 s

/-- FORCE (R202): TRACK`t`.CTRL.FORCE written 1. -/
def effForce (m : Master) (t : Nat) (s : Block) : Out := withIdx 4 t <| writeAt m (0x12000 + 0x100 * t) 1 15 s

/-- TMR_INJ_GO (R320): TMR_INJ written with GO at 1. -/
def effTmrInjGo (m : Master) (v : Word) (s : Block) : Out := writeAt m R.GLOBAL_TMR_INJ (v ||| 1) 15 s

/-- PATROL_TEST_GO (R372): TEST written with GO at 1. -/
def effPatrolTestGo (m : Master) (v : Word) (s : Block) : Out := writeAt m R.PATROL_TEST (v ||| 0x80000000) 15 s

/-- RTC_SET (R377): AON.CTRL written with RTC_SET at 1. -/
def effRtcSet (m : Master) (v : Word) (s : Block) : Out := writeAt m R.AON_CTRL (v ||| 1) 15 s

/-- WDOG_KICK (R379). -/
def effWdogKick (m : Master) (v : Word) (s : Block) : Out := writeAt m R.AON_WDOG_KICK v 15 s

/-- GDAT_SEND (R232): GDAT_CTRL written with SEND at 1. -/
def effGdatSend (m : Master) (v : Word) (s : Block) : Out := writeAt m R.GYDEN_GDAT_CTRL (v ||| 0x100) 15 s

/-- UP_RPTR_WRITE (R190). -/
def effUpRptrWrite (m : Master) (t : Nat) (v : Word) (s : Block) : Out :=
  withIdx 4 t <| writeAt m (0x12000 + 0x100 * t + R.TRACK_UP_RPTR) v 15 s

/-- PKG_CAP_WRITE (R362). -/
def effPkgCapWrite (m : Master) (v : Word) (s : Block) : Out := writeAt m R.POWER_PKG_CAP v 15 s

/-- WRITE_REACHES_ADIE (R314): the oldest write on region `rgn`'s link acts at its unit. -/
def effWriteReachesAdie (rgn : Nat) (s : Block) : Out := withIdx 4 rgn <| .next (linkDeliver s rgn)

/-! ## Reads -/

/-- The address of a master's shadow tag (R321). -/
def tagF (m : Master) : Fld :=
  match m with
  | .pcie => F.GLOBAL_SHADOW_STAT_TAG_P
  | .spi => F.GLOBAL_SHADOW_STAT_TAG_S

/-- A read of a latching low word `a`: the higher words `l` as they stand go into the master's shadow. -/
def readLow (s : Block) (m : Master) (a : Nat) (l : List Nat) : Block :=
  let act := readActive s m
  let v := viewWord s act 0 a
  let hi := (l.zipIdx).map (fun x => Word.ofNat (viewWord s act (x.2 + 1) x.1))
  let i := s.hostIf
  let s := { s with hostIf := match m with
    | .pcie => { i with latchP := hi }
    | .spi => { i with latchS := hi } }
  setRead { setF s (tagF m) (a / 4) with free := s.free + 3 } m v

/-- A read of a higher word `a` of the low word `lo`: the shadow where the tag matches, else the live value with
HI_UNLATCHED. -/
def readHigh (s : Block) (m : Master) (a lo : Nat) : Block :=
  if getF s (tagF m) = lo / 4 then
    let l := match m with
      | .pcie => s.hostIf.latchP
      | .spi => s.hostIf.latchS
    setRead s m (l.getD ((a - lo) / 4 - 1) 0).toNat
  else
    let v := viewWord s (readActive s m) 0 a
    raise (setRead { s with free := s.free + 1 } m v) F.GLOBAL_STATUS_HI_UNLATCHED

/-- A read of WIN_DATA (R118). -/
def readWindow (s : Block) (m : Master) : Block :=
  let s := winRequest s 6 (linkSub m) 0
  winStep (winWalk (setRead s m (winRead s)))

/-- A read of pair `p`'s IND_DATA. -/
def readInd (s : Block) (m : Master) (p : Nat) : Block :=
  let r := indRead s p m
  setRead r.1 m r.2

/-- A read of the register at `a`. -/
def readReg (s : Block) (m : Master) (a : Nat) : Block :=
  let s := observe s a
  if a = R.MMU_WIN_DATA then readWindow s m
  else if a = R.GLOBAL_IND_DATA then readInd s m 0
  else if a = R.GLOBAL_IND_DATA_S then readInd s m 1
  else
    match latchSet a, lowOf a with
    | b :: t, _ => readLow s m a (b :: t)
    | [], some lo => readHigh s m a lo
    | [], none => setRead { s with free := s.free + 1 } m (viewWord s (readActive s m) 0 a)

/-- The word of the command window at `a` (R285). -/
def windowRead (s : Block) (a : Nat) : Nat :=
  bytesNat ((List.range 4).map (fun i => Tbl.get (fun _ => (0 : Byte)) s.cmd.window (a - 0x40000 + i)))

/-- A read of the word at byte address `a` in the cycle that it has. -/
def readNow (m : Master) (a : Nat) (s : Block) : Out :=
  if 0x40000 ≤ a && a < 0x50000 then .next (setRead (takeSlot s m) m (windowRead s a))
  else
    let s := countAccess s m
    if a < 0x40000 && (regDef a).isSome then .next (readReg s m a)
    else .next (setRead (reservedAccess s m a (decide (0x50000 ≤ a))) m 0)

/-- A read of byte address `a` by master `m` (R311, R312, R315, R321). Before READY, SPI reads zero (R387). -/
def readAt (m : Master) (a : Nat) (s : Block) : Out :=
  if !accessible m a then .fault .noSuchObject
  else if !linkReady s m then .next (if m = .spi then setRead s m 0 else s)
  else if accessStalls s m a then .next s
  else readNow m a (atSlot s m)

/-- IND_DATA_READ (R324, R325): the master's own pair. -/
def effIndDataRead (m : Master) (s : Block) : Out := readAt m (R.GLOBAL_IND_DATA + 0xC * masterNo m) s

/-- LATCHING_LOW_READ (R321). -/
def effLatchingLowRead (m : Master) (addr : Nat) (s : Block) : Out := readAt m addr s

/-- HIGH_WORD_READ (R321). -/
def effHighWordRead (m : Master) (addr : Nat) (s : Block) : Out := readAt m addr s

/-- RESERVED_READ (R315). -/
def effReservedRead (m : Master) (addr : Nat) (s : Block) : Out := readAt m addr s

/-- WIN_DATA_ACCESS (R118): a write of `wr`, or a read. -/
def effWinDataAccess (m : Master) (wr : Option Word) (s : Block) : Out :=
  match wr with
  | some v => writeAt m R.MMU_WIN_DATA v 15 s
  | none => readAt m R.MMU_WIN_DATA s

/-! ## The meanings -/

/-- REGISTER_WRITE (R311, R313 to R318, R322), done to the block; the queue stays. -/
def execRegisterWrite (m : Master) (a : Nat) (v : Word) (be : Nat) (s : State) : Host.Outcome State Fault Refusal :=
  onReads s (effRegisterWrite m a v be)

/-- SQ_TAIL_WRITE (R286), done to the block; the queue stays. -/
def execSqTailWrite (m : Master) (ring : Nat) (v : Word) (s : State) : Host.Outcome State Fault Refusal :=
  onBlock s (effSqTailWrite m ring v)

/-- SQ_CFG_WRITE (R286), done to the block; the queue stays. -/
def execSqCfgWrite (m : Master) (ring : Nat) (v : Word) (s : State) : Host.Outcome State Fault Refusal :=
  onBlock s (effSqCfgWrite m ring v)

/-- CQ_CFG_WRITE (R290), done to the block; the queue stays. -/
def execCqCfgWrite (m : Master) (v : Word) (s : State) : Host.Outcome State Fault Refusal :=
  onBlock s (effCqCfgWrite m v)

/-- CQ_HEAD_WRITE (R290), done to the block; the queue stays. -/
def execCqHeadWrite (m : Master) (v : Word) (s : State) : Host.Outcome State Fault Refusal :=
  onBlock s (effCqHeadWrite m v)

/-- KEY (R317), done to the block; the queue stays. -/
def execKey (m : Master) (v : Word) (s : State) : Host.Outcome State Fault Refusal :=
  onBlock s (effKey m v)

/-- UPDATE (R323), done to the block; the queue stays. -/
def execUpdate (m : Master) (v : Word) (s : State) : Host.Outcome State Fault Refusal :=
  onBlock s (effUpdate m v)

/-- IND_ADDR_WRITE (R324), done to the block; the queue stays. -/
def execIndAddrWrite (m : Master) (v : Word) (s : State) : Host.Outcome State Fault Refusal :=
  onBlock s (effIndAddrWrite m v)

/-- IND_DATA_WRITE (R324, R325), done to the block; the queue stays. -/
def execIndDataWrite (m : Master) (v : Word) (s : State) : Host.Outcome State Fault Refusal :=
  onReads s (effIndDataWrite m v)

/-- IND_PREFETCH_DONE (R324), done to the block; the queue stays. -/
def execIndPrefetchDone (m : Master) (s : State) : Host.Outcome State Fault Refusal :=
  onReads s (effIndPrefetchDone m)

/-- DESC_SEL_WRITE (R123), done to the block; the queue stays. -/
def execDescSelWrite (m : Master) (v : Word) (s : State) : Host.Outcome State Fault Refusal :=
  onBlock s (effDescSelWrite m v)

/-- PTE_SEL_WRITE (R123), done to the block; the queue stays. -/
def execPteSelWrite (m : Master) (v : Word) (s : State) : Host.Outcome State Fault Refusal :=
  onBlock s (effPteSelWrite m v)

/-- RT_SEL_WRITE (R213), done to the block; the queue stays. -/
def execRtSelWrite (m : Master) (v : Word) (s : State) : Host.Outcome State Fault Refusal :=
  onBlock s (effRtSelWrite m v)

/-- RT_GO (R213), done to the block; the queue stays. -/
def execRtGo (m : Master) (s : State) : Host.Outcome State Fault Refusal :=
  onBlock s (effRtGo m)

/-- RT_CLR (R236), done to the block; the queue stays. -/
def execRtClr (m : Master) (s : State) : Host.Outcome State Fault Refusal :=
  onBlock s (effRtClr m)

/-- SWEV (R219), done to the block; the queue stays. -/
def execSwev (m : Master) (v : Word) (s : State) : Host.Outcome State Fault Refusal :=
  onBlock s (effSwev m v)

/-- FORCE (R202), done to the block; the queue stays. -/
def execForce (m : Master) (t : Nat) (s : State) : Host.Outcome State Fault Refusal :=
  onBlock s (effForce m t)

/-- TMR_INJ_GO (R320), done to the block; the queue stays. -/
def execTmrInjGo (m : Master) (v : Word) (s : State) : Host.Outcome State Fault Refusal :=
  onBlock s (effTmrInjGo m v)

/-- PATROL_TEST_GO (R372), done to the block; the queue stays. -/
def execPatrolTestGo (m : Master) (v : Word) (s : State) : Host.Outcome State Fault Refusal :=
  onBlock s (effPatrolTestGo m v)

/-- RTC_SET (R377), done to the block; the queue stays. -/
def execRtcSet (m : Master) (v : Word) (s : State) : Host.Outcome State Fault Refusal :=
  onBlock s (effRtcSet m v)

/-- WDOG_KICK (R379), done to the block; the queue stays. -/
def execWdogKick (m : Master) (v : Word) (s : State) : Host.Outcome State Fault Refusal :=
  onBlock s (effWdogKick m v)

/-- GDAT_SEND (R232), done to the block; the queue stays. -/
def execGdatSend (m : Master) (v : Word) (s : State) : Host.Outcome State Fault Refusal :=
  onBlock s (effGdatSend m v)

/-- UP_RPTR_WRITE (R190), done to the block; the queue stays. -/
def execUpRptrWrite (m : Master) (t : Nat) (v : Word) (s : State) : Host.Outcome State Fault Refusal :=
  onBlock s (effUpRptrWrite m t v)

/-- PKG_CAP_WRITE (R362), done to the block; the queue stays. -/
def execPkgCapWrite (m : Master) (v : Word) (s : State) : Host.Outcome State Fault Refusal :=
  onBlock s (effPkgCapWrite m v)

/-- WRITE_REACHES_ADIE (R314), done to the block; the queue stays. -/
def execWriteReachesAdie (rgn : Nat) (s : State) : Host.Outcome State Fault Refusal :=
  onBlock s (effWriteReachesAdie rgn)

/-- IND_DATA_READ (R324, R325), done to the block; the queue stays. -/
def execIndDataRead (m : Master) (s : State) : Host.Outcome State Fault Refusal :=
  onReads s (effIndDataRead m)

/-- LATCHING_LOW_READ (R321), done to the block; the queue stays. -/
def execLatchingLowRead (m : Master) (addr : Nat) (s : State) : Host.Outcome State Fault Refusal :=
  onReads s (effLatchingLowRead m addr)

/-- HIGH_WORD_READ (R321), done to the block; the queue stays. -/
def execHighWordRead (m : Master) (addr : Nat) (s : State) : Host.Outcome State Fault Refusal :=
  onReads s (effHighWordRead m addr)

/-- RESERVED_READ (R315), done to the block; the queue stays. -/
def execReservedRead (m : Master) (addr : Nat) (s : State) : Host.Outcome State Fault Refusal :=
  onReads s (effReservedRead m addr)

/-- WIN_DATA_ACCESS (R118), done to the block; the queue stays. -/
def execWinDataAccess (m : Master) (wr : Option Word) (s : State) : Host.Outcome State Fault Refusal :=
  onReads s (effWinDataAccess m wr)

end Sys2Proof.Machine
end

