-- ==== Sys2Proof/Machine/UnitCommands.lean ====
section
/-! DEFINITION. UNIT_CONFIG, UNIT_RANGE, UNIT_ENABLE and UNIT_DISABLE (R87, R88, R300, R301). -/

namespace Sys2Proof.Machine

/-! ## UNIT_CONFIG -/

/-- The word a pair asks for, over the register's programmed word. -/
def configWord (s : Block) (u o v : Nat) : Nat :=
  mergeMask (getP s (unitBase u + o)).toNat v (configMask u o)

/-- The words of the packet, with the flags of those the unit's rules ignore. -/
def configWords (s : Block) (u : Nat) (l : List (Nat × Nat)) : Block × List (Nat × Nat × Nat) :=
  l.foldl (fun (a : Block × List (Nat × Nat × Nat)) p =>
    let m := configMask u p.1
    let r := unitMask a.1 u p.1 (getP a.1 (unitBase u + p.1)).toNat (configWord a.1 u p.1 p.2) m
    if r.2 = 0 then (r.1, a.2) else (r.1, a.2 ++ [(unitBase u + p.1, p.2, r.2)])) (s, [])

/-- UNIT_CONFIG's checks and effect: an acquisition unit takes its words at the commit edge e, any other at its first
boundary at or after e + 4,000 ns (R295), for which the command waits (R292); at an edge that is now it waits for nothing. -/
def unitConfigBody (s : Block) (p : List Word) : CmdRes :=
  let u := pb p 1 6 0
  let l := configPairs (p.drop 1)
  notInBoot s <|
    if 104 ≤ u || l.any (fun x => decide (0x100 ≤ x.1) || x.1 % 4 != 0 ||
        (decide (u < 64) && x.1 == R.P_RANGE)) then
      .fail s Sts.badParam
    else if calNamed s u then .failD s Sts.state u
    else
      let r := configWords s u l
      let t := commitStrobe r.1 u r.2
      if 64 ≤ u && u < 96 && nextEdge s = s.sysTime then .okay (commitEdges t) else .wait t [] 0 0

/-- UNIT_CONFIG (0x30). -/
def effUnitConfig (h : Hdr) (p : List Word) (s : Block) : Out :=
  runCmd s h 0x30 p [] (fun n => decide (4 ≤ n) && n % 2 == 0) [0x7F] unitConfigBody

/-! ## Grants of a unit command (R301) -/

/-- What came of asking for every grant: all granted or queued so far, or the unit that was denied. -/
structure Asked where
  st     : Block
  held   : List Nat
  queued : Bool
  denied : Option Nat

/-- The grants for ranges `code u` asked for in ascending order, up to a denial. -/
def askGrants (s : Block) (h : Hdr) (us : List Nat) (code : Nat → Nat) : Asked :=
  us.foldl (fun (a : Asked) u =>
    match a.denied with
    | some _ => a
    | none =>
      let n := grantNeed a.st u (code u)
      if n = 0 then a
      else
        let r := pacAsk a.st (unitRequest a.st h u (code u) (us.headD 0) (a.st.now + toUnit a.st)) false
        match r.2 with
        | .grant => { a with st := r.1, held := a.held ++ [u + 64 * n] }
        | .queue => { a with st := r.1, queued := true }
        | .deny => { a with st := r.1, denied := some u }) ⟨s, [], false, none⟩

/-- The grants obtained are released again. -/
def undoGrants (h : Hdr) (op : Nat) (p : List Word) (a : Asked) : Block :=
  dropGrants a.st ⟨h, op, p, [], .waiting, 1, 0, 0, 0 :: a.held, 0, false, 0, a.st.cmd.cur⟩

/-! ## UNIT_RANGE -/

/-- UNIT_RANGE's checks and effect. -/
def unitRangeBody (h : Hdr) (s : Block) (p : List Word) : CmdRes :=
  let us := bitList (pw64 p 1) 64
  let sel := pb p 3 3 0
  notInBoot s <|
    if us.isEmpty || (us.any (fun u => decide (u < 48)) && us.any (fun u => decide (48 ≤ u))) ||
        !rangeOk (us.headD 0) sel then .fail s Sts.badParam
    else
      match us.find? (calNamed s) with
      | some u => .failD s Sts.state u
      | none =>
        let a := askGrants s h us (fun _ => sel)
        match a.denied with
        | some u => .failD (undoGrants h Op.unitRange p a) Sts.powerDenied u
        | none =>
          if a.queued then .wait a.st (0 :: a.held) (s.now + toUnit s) 0
          else
            let s := forEach us a.st (fun s u => commitStrobe s u [(unitBase u + R.P_RANGE, sel, 0xF)])
            .wait s (1 :: a.held) 0 0

/-- UNIT_RANGE (0x31). -/
def effUnitRange (h : Hdr) (p : List Word) (s : Block) : Out :=
  runCmd s h 0x31 p [] (· == 4) [0xFFFFFFFF, 0xFFFFFFFF, 0xF] (unitRangeBody h)

/-! ## UNIT_ENABLE -/

/-- The last transition that a command has given `u` and its next boundary has still to apply. -/
def lastPending (s : Block) (u : Nat) : Option Trans := ((unit s u).trans.getLast?).map (fun p => p.2)

/-- Unit `u` may not be enabled in its present state (Table 04-2, R16, R79). A disable committed before and not
yet applied is overtaken (Table 04-5). -/
def enableBad (s : Block) (u : Nat) : Bool :=
  let x := unit s u
  let o := ostate s u
  calNamed s u || (groupOf s u).isNone || !groupArmed s u ||
    (getF s F.PATROL_RGN_STATE_SAFE).testBit (regionOf u) ||
    !(o == 1 || (o == 0 && x.afterDis) || (o == 5 && x.goal == .rest && x.disabling) ||
      decide (lastPending s u = some .disable))

/-- UNIT_ENABLE's checks and effect. -/
def unitEnableBody (h : Hdr) (s : Block) (p : List Word) : CmdRes :=
  let us := bitList (pw64 p 1) 64
  notInBoot s <|
    if us.isEmpty then .fail s Sts.badParam
    else if modeOf s = 1 || modeOf s = 4 then .fail s Sts.state
    else
      match us.find? (enableBad s) with
      | some u => .failD s Sts.state u
      | none =>
        let a := askGrants s h us (selRange s)
        match a.denied with
        | some u => .failD (undoGrants h Op.unitEnable p a) Sts.powerDenied u
        | none =>
          if a.queued then
            .wait (forEach us a.st (fun s u => schedUnit s u (s.sysTime + 1) .pause)) (0 :: a.held)
              (s.now + toUnit s) 0
          else .wait (forEach us a.st (fun s u => schedUnit s u (s.sysTime + 1) .enable)) (1 :: a.held) 0 0

/-- UNIT_ENABLE (0x32). -/
def effUnitEnable (h : Hdr) (p : List Word) (s : Block) : Out :=
  runCmd s h 0x32 p [] (· == 3) [0xFFFFFFFF, 0xFFFFFFFF] (unitEnableBody h)

/-! ## UNIT_DISABLE -/

/-- Unit `u` may not be disabled in its present state (Table 04-2). An enable committed before and not yet
applied is overtaken (Table 04-5). -/
def disableBad (s : Block) (u : Nat) : Bool :=
  let x := unit s u
  let o := ostate s u
  let playing := match x.goal with
    | .play => true
    | .value _ _ => true
    | _ => false
  !(o == 2 || o == 3 || (o == 5 && playing) || (o == 4 && !x.viaSafe) ||
    decide (lastPending s u = some .enable) || decide (lastPending s u = some .pause))

/-- A UNIT_ENABLE that waits for grants and names one of the units is cancelled (Table 04-5): its requests go,
its other units resume, and it completes ABORTED. -/
def cancelEnables (s : Block) (us : List Nat) : Block :=
  s.cmd.jobs.foldl (fun s j =>
    if j.op = Op.unitEnable && j.todo.headD 1 = 0 && (namedUnits j).any (fun u => us.contains u) then
      let s := endJob s j Sts.aborted 0
      let s := forEach ((namedUnits j).filter (fun u => !us.contains u)) s (fun s u =>
        schedUnit s u (s.sysTime + 1) .unpause)
      dropGrants s j
    else s) s

/-- UNIT_DISABLE's checks and effect. -/
def unitDisableBody (s : Block) (p : List Word) : CmdRes :=
  let us := bitList (pw64 p 1) 64
  notInBoot s <|
    if us.isEmpty then .fail s Sts.badParam
    else
      match us.find? (disableBad s) with
      | some u => .failD s Sts.state u
      | none =>
        let s := cancelEnables s us
        .wait (forEach us s (fun s u =>
          schedUnit (setUnit s u { unit s u with sd := 3 }) u (s.sysTime + 1) .disable)) [] 0 0

/-- UNIT_DISABLE (0x33). -/
def effUnitDisable (h : Hdr) (p : List Word) (s : Block) : Out :=
  runCmd s h 0x33 p [] (· == 3) [0xFFFFFFFF, 0xFFFFFFFF] unitDisableBody

/-! ## The meanings -/

/-- UNIT_CONFIG (0x30), done to the block; the queue stays. -/
def execUnitConfig (h : Hdr) (p : List Word) (s : State) : Host.Outcome State Fault Refusal :=
  onBlock s (effUnitConfig h p)

/-- UNIT_RANGE (0x31), done to the block; the queue stays. -/
def execUnitRange (h : Hdr) (p : List Word) (s : State) : Host.Outcome State Fault Refusal :=
  onBlock s (effUnitRange h p)

/-- UNIT_ENABLE (0x32), done to the block; the queue stays. -/
def execUnitEnable (h : Hdr) (p : List Word) (s : State) : Host.Outcome State Fault Refusal :=
  onBlock s (effUnitEnable h p)

/-- UNIT_DISABLE (0x33), done to the block; the queue stays. -/
def execUnitDisable (h : Hdr) (p : List Word) (s : State) : Host.Outcome State Fault Refusal :=
  onBlock s (effUnitDisable h p)

end Sys2Proof.Machine
end

