-- ==== Sys2Proof/Machine/UnitRows.lean ====
section
/-! DEFINITION. What happens to P and D units beside their frames: temperature (R42, R364, R367), sense,
compliance, overload (R45, R49, R50, R52), range switches (R91), excitation (R66 to R68), and a lost
loop-cache word (R113). -/

namespace Sys2Proof.Machine

/-! ## Temperature -/

/-- A new temperature for the units of analogue cluster `k` of PC0–PC11, DC0–DC3, AC0–AC7 (R42): P and D units
apply it at their first frame boundary after now, acquisition units, which have no frames, at once; a calibration run sees
it at the units on the path (Table 15-4, row 0x19). -/
def giveTemp (s : Block) (k : Nat) (v : Int) : Block :=
  let l := if k < 16 then clusterUnits k else (List.range 4).map (· + 64 + 4 * (k - 16))
  forEach l (runTemp s l v) (fun s u =>
    let x := unit s u
    setUnit s u (if k < 16 then { x with tempNew := some (v, s.sysTime), tempAt := s.now }
      else { x with temp := v, tempAt := s.now }))

/-- Bits 8d + 7 to 8d of a register of PATROL that holds a value per die. -/
def dieFld (f : Fld) (d : Nat) : Fld := ⟨f.adr, 8 * d + 7, 8 * d⟩

/-- A die's limit and its derated value (R364). -/
def dieLimit (d : Nat) : Fld × Nat × Nat :=
  match d with
  | 0 => (F.POWER_LIM_ADIE_ADIE0, 5000, 4000)
  | 1 => (F.POWER_LIM_ADIE_ADIE1, 5000, 4000)
  | _ => (F.POWER_LIM_CDIE_CDIE, 6000, 5500)

/-- The analogue die of cluster `k` of PC0–PC11, DC0–DC3, AC0–AC7. -/
def clusterDie (k : Nat) : Nat := if k < 12 then k / 6 else if k < 16 then (k - 12) / 2 else (k - 16) / 4

/-- The hottest sensor of die `d` (0 ADIE0, 1 ADIE1, 2 CDIE) in 1/128 °C: its own `v` °C, and on an analogue die those of
its clusters (R19, R367). -/
def hottest (d : Nat) (v : Int) (clusters : List (Option Int)) : Int :=
  (clusters.take 24).zipIdx.foldl (fun m p => match p.1 with
    | some c => if clusterDie p.2 = d && decide (m < c) then c else m
    | none => m) (v * 128)

/-- The hottest sensor of die `d` (0 ADIE0, 1 ADIE1, 2 CDIE) reads `w` in 1/128 °C: the registers, the derating, and the
event of class 6 (R364, R367). -/
def dieTemp (s : Block) (d : Nat) (w : Int) : Block :=
  let v := satS 8 (w / 128)
  let s := setF s (dieFld F.PATROL_TEMP_NOW_ADIE0 d) (unsigned 8 v)
  let mx := dieFld F.PATROL_TEMP_MAX_ADIE0 d
  let s := if signed 8 (getF s mx) < v then setF s mx (unsigned 8 v) else s
  let l := dieLimit d
  let t := getF s F.POWER_DERATE_T
  let s :=
    if (t : Int) * 128 < w then
      if getF s l.1 = l.2.1 then raise (setF s l.1 l.2.2) F.POWER_STATUS_DERATE else s
    else if w < ((t : Int) - getF s F.POWER_DERATE_HYST) * 128 then setF s l.1 l.2.1
    else s
  if (getF s (dieFld F.PATROL_TEMP_LIM_ADIE0 d) : Int) * 128 < w then patrolEvent s 6 d else s

/-- TEMP_SAMPLE: the temperatures of one SYSTIME multiple of 10 ms; at another time there is none (R42). -/
def effTempSample (t : Temps) (s : Block) : Out :=
  if s.sysTime % 10000000 != 0 then .next s
  else
    let s := forEach ((t.clusters.take 24).zipIdx) s (fun s p =>
      match p.1 with
      | some v => giveTemp s p.2 v
      | none => s)
    let die := fun (s : Block) d v => dieTemp s d (hottest d v t.clusters)
    .next (settleJobs (pacVisit (die (die (die s 0 t.adie0) 1 t.adie1) 2 t.cdie)))

/-- TEMP_STALE: 100 ms without a valid temperature of the cluster; the last valid value stays in use. A cluster
heard since then sets nothing. -/
def effTempStale (cluster : Nat) (s : Block) : Out :=
  withIdx 24 cluster <|
    let us := if cluster < 16 then clusterUnits cluster
      else (List.range 4).map (· + 64 + 4 * (cluster - 16))
    .next (forEach us s (fun s u =>
      if (unit s u).tempAt + 100000000 ≤ s.now then 
        raise s (if u < 64 then uF u F.P_STATUS_TEMP_STALE else aF (u - 64) F.A_STATUS_TEMP_STALE)
      else s))

/-! ## Sense, compliance, overload -/

/-- The range at the pin. -/
def actRange (s : Block) (u : Nat) : Nat := getF s (uF u F.P_RANGE_ACT)

/-- SENSE_CHECK (R49): a voltage-mode unit whose check is not suspended, once at a SYSTIME multiple of 10 ms; at another
time there is none. -/
def effSenseCheck (u : Nat) (isOpen : Bool) (s : Block) : Out :=
  withIdx 64 u <|
    if s.sysTime % 10000000 != 0 || (unit s u).senseAt = s.sysTime + 1 then .next s
    else if isCurrent (actRange s u) || senseOff s u then
      .next (setUnit s u { unit s u with senseInt := false, senseAt := s.sysTime + 1 })
    else
      let s := setUnit s u { unit s u with senseInt := isOpen, senseAt := s.sysTime + 1 }
      .next (if isOpen then unitFlag s u 3 else s)

/-- COMPLIANCE_ONSET (R50, R54): the load takes the unit to its compliance or current limit; while that lasts a cleared
flag is set again at the next frame boundary. -/
def effComplianceOnset (u : Nat) (lasts : Bool) (s : Block) : Out :=
  withIdx 64 u <|
    let s := runLimit (setUnit s u { unit s u with comp := lasts }) u
    .next (if lasts then settleJobs (patrolEvent (unitFlag s u 1) 1 u) else s)

/-- OPEN_LOAD (R52): a D unit in current mode with OPEN_DET 1. -/
def effOpenLoad (u : Nat) (s : Block) : Out :=
  withIdx 64 u <|
    .next (if 48 ≤ u && isCurrent (actRange s u) && flag s (uF u F.D_LOADCFG_OPEN_DET) then
      raise s ⟨unitBase u + R.P_STATUS, 9, 9⟩ else s)

/-- MOD_OVL (R45, R54): an integrator reaches its bound and is clamped; the modulator keeps running. -/
def effModOvl (u : Nat) (lasts : Bool) (s : Block) : Out :=
  withIdx 64 u <|
    let s := setUnit s u { unit s u with ovl := lasts }
    .next (if lasts then settleJobs (patrolEvent (unitFlag s u 2) 2 u) else s)

/-! ## Range switches (R91, Table 04-4) -/

/-- The excitation readback outside the ratiometric range, and before its first window (R67). The whole of XSTAT reads 0
there, also the bits for which R67 names no value (DESIGN CHOICE, log entry 46). -/
def clearExc (s : Block) (u : Nat) : Block :=
  let s := noteUnlocked s u
  let s := setUnit s u { unit s u with exc := {} }
  let s := setF (setF s (uF u F.P_EXC_QUAD) 0x8000) (uF u F.P_EXC_VEXC) 0
  putM (putM s (brgBase u + R.BRG_XSTAT) 0xFFFFFFFF 0) (brgBase u + R.BRG_XPEAK) 0xFFFFFFFF 0

/-- RANGE.ACT of P unit `u` comes to show 4: the first window begins, and the tracker acquires (R66, R67). -/
def startExc (s : Block) (u : Nat) : Block :=
  setUnit s u { unit s u with exc := { highAt := s.sysTime + 1, unlockAt := s.sysTime + 1 } }

/-- The range whose grant unit `u` still needs beside the one at the pin: that of a change in course or of the
playback value it heads for. -/
def neededRange (s : Block) (u code : Nat) : Nat :=
  let x := unit s u
  let other := match x.rc with
    | some c => c.tgt
    | none => if x.enabled && x.goal == .play then selRange s u else code
  if rangePac u code < rangePac u other then other else code

/-- One pin-time change of unit `u`: the switch of a change between modes opens (16) or closes (17), or
RANGE.ACT shows a range, from 32 on that of a switch. -/
def pinChange (s : Block) (u code : Nat) : Block :=
  let x := unit s u
  match code with
  | 16 =>
    if x.hid.isSome then s
    else
      let o := getF s (uF u F.P_STATE_OSTATE)
      setF (setUnit s u { x with hid := some o }) (uF u F.P_STATE_OSTATE) 0
  | 17 =>
    match x.hid with
    | some o => setF (setUnit s u { x with hid := none }) (uF u F.P_STATE_OSTATE) o
    | none => s
  | _ =>
    let r := code % 32
    let s := if u < 48 && r != 4 then clearExc s u else s
    let s := setUnit (setF s (uF u F.P_RANGE_ACT) r) u
      { unit s u with swFrom := if code < 32 then x.swFrom else x.swFrom.drop 1 }
    let s := if (unit s u).rc.isNone then setF s (strF u F.STR_STEVT_RCHG) 0 else s
    let s := if u < 48 && r = 4 then startExc s u else s
    releaseGrant s u (neededRange s u r)

/-- RANGE_SWITCH: the pin-time changes of unit `u` that have come. -/
def effRangeSwitch (u : Nat) (s : Block) : Out :=
  withIdx 64 u <|
    let x := unit s u
    let due := x.actQ.filter (fun p => decide (p.1 ≤ s.sysTime))
    let s := setUnit s u { x with actQ := x.actQ.filter (fun p => decide (s.sysTime < p.1)) }
    .next (settleJobs (forEach due s (fun s p => pinChange s u p.2)))

/-- The frames of a switch that failed hold the range-change value in the old range at the clamp (R91): those already coded
in the new range take the value before them. -/
def clampChain (l : List ChainFrame) (rng : Nat) : List ChainFrame :=
  match l.find? (fun f => f.rng == rng) with
  | some g => l.map (fun f => if f.rng = rng then f else { f with y := g.y, rng := rng })
  | none => l

/-- SW_FAIL: the switches of the oldest change that has reached the pins do not confirm before RANGE.ACT is to show the new
range. The unit keeps the clamp or the open switch and parks with its old range at the pin, its grants and its records
kept; a disable in course is overtaken, and PATROL counts the unit. -/
def effSwFail (u : Nat) (s : Block) : Out :=
  withIdx 64 u <|
    match (unit s u).swFrom with
    | [] => .next s
    | p :: _ =>
      if s.sysTime + 1 < p then .next s
      else
        let s := raise (overtaken s u) (strF u F.STR_STEVT_SW_FAIL)
        let s := setF (setF s (strF u F.STR_STEVT_RCHG) 0) (strF u F.STR_STEVT_GRANT_WAIT) 0
        let x := unit s u
        let s := setUnit s u { x with
          rc := none, actQ := [], hid := x.hid.map (fun _ => 0), goal := .rest, afterDis := true, enabled := false
          swFrom := [], paused := none, rng := getF s (strF u F.STR_SCFG_RRANGE)
          chain := clampChain x.chain (getF s (uF u F.P_RANGE_ACT)) }
        let s := setF (setF s (uF u F.P_STATE_OSTATE) 0) (uF u F.P_STATE_SP_TARGET) 0
        .next (settleJobs (patrolEvent s 1 u))

/-! ## Excitation -/

/-- The measured frequency `f` lies within ±5 % of FNOM, both in 0.1 Hz (R66). -/
def nearFnom (s : Block) (u f : Nat) : Bool :=
  let n := xcfgF s u F.BRG_XCFG_FNOM
  decide (20 * f ≤ 21 * n) && decide (19 * n ≤ 20 * f)

/-- TRK_LOCK (R66): 16 periods in a row below 1 mrad, of a carrier near FNOM whose peak is at least 1 V; E moves to the
compensated excitation. A tracker that was unlocked for 64 periods sets EXC_RANGE all the same. -/
def effTrkLock (u : Nat) (r : TrkReport) (s : Block) : Out :=
  withIdx 48 u <|
    let ok := tracking s u && !locked s u && decide (16 ≤ r.errs.length) &&
      (r.errs.take 16).all (fun e => decide (e < 1000)) && nearFnom s u r.freq && decide (1000000 ≤ r.peak)
    if !ok then .next s
    else
      let s := startBlend (noteUnlocked s u) u
      let x := unit s u
      let s := setUnit s u { x with exc := { x.exc with unlockAt := 0, periods := [] } }
      .next (setF s (F.BRG_XSTAT_TRK_LOCK.at (brgBase u)) 1)

/-- TRK_LOCK_LOSS (R66): 4 periods in a row above 10 mrad, or a frequency away from FNOM; E moves back to e[k]. -/
def effTrkLockLoss (u : Nat) (r : TrkReport) (s : Block) : Out :=
  withIdx 48 u <|
    let four := decide (4 ≤ r.errs.length) && (r.errs.take 4).all (fun e => decide (10000 < e))
    if !locked s u || (!four && nearFnom s u r.freq) then .next s
    else
      let s := startBlend s u
      let x := unit s u
      let s := setUnit s u { x with exc := { x.exc with unlockAt := s.sysTime + 1, periods := [] } }
      .next (setF s (F.BRG_XSTAT_TRK_LOCK.at (brgBase u)) 0)

/-- QUAD of a measured residual (R67). -/
def quadCode (q : Int) : Nat := unsigned 16 (clampI (-32767) 32767 q)

/-- The greatest magnitude among the samples, in µV. -/
def excPeak (l : List ExcSample) : Nat := l.foldl (fun m x => max m (excRaw x).natAbs) 0

/-- The SYSTIME (+ 1) of the last sample of at least 1 V; `old` where there is none. The last sample is taken now. -/
def excHighAt (s : Block) (old : Nat) (l : List ExcSample) : Nat :=
  l.reverse.zipIdx.foldr (fun p m => if 1000000 ≤ (excRaw p.1).natAbs then s.sysTime + 1 - 25 * p.2 else m) old

/-- One measurement window as `periods` keeps it: the sum of squares in µV², the samples, the peak, the quadrature. -/
def excPeriod (w : ExcWindow) : Nat × Nat × Nat × Int :=
  (w.samples.foldl (fun n x => n + (excRaw x).natAbs ^ 2) 0, w.samples.length, excPeak w.samples, w.quad)

/-- VEXC in mV: the RMS over the windows `l`. -/
def excRms (l : List (Nat × Nat × Nat × Int)) : Nat :=
  natSqrt ((l.foldl (fun n p => n + p.1) 0) / max 1 (l.foldl (fun n p => n + p.2.1) 0)) / 1000

/-- VEXC in mV in DC mode: the mean magnitude of the samples. -/
def excMean (l : List ExcSample) : Nat :=
  (l.foldl (fun n x => n + (excRaw x).natAbs) 0) / max 1 l.length / 1000

/-- The mean of the residual quadratures of the windows `l`, to nearest. -/
def excQuad (l : List (Nat × Nat × Nat × Int)) : Int :=
  divRound (l.foldl (fun n p => n + p.2.2.2) 0) l.length

/-- The readback of P unit `u` after a window (R67): in CARRIER mode, locked, over the last 16 carrier periods, else over
this window. VEXC and QUAD keep their values from before lock until 16 periods have ended. NEG is 0 in CARRIER mode, for
which the spec gives it no meaning (DESIGN CHOICE, log entry 46). -/
def excReadback (s : Block) (u : Nat) (w : ExcWindow) : Block :=
  let b := brgBase u
  let l := (unit s u).exc.periods
  let carrier := tracking s u
  let lock := locked s u
  let one := [excPeriod w]
  let rms := excRms (if lock then l else one)
  let s :=
    if lock && decide (l.length < 16) then s
    else
      let s := setF s (uF u F.P_EXC_VEXC) (satU 16 (if carrier then rms else excMean w.samples))
      setF s (uF u F.P_EXC_QUAD) (if lock then quadCode (excQuad l) else 0x8000)
  let s := setF s (F.BRG_XPEAK_UV.at b) (satU 24 ((if lock then l else one).foldl (fun m p => max m p.2.2.1) 0))
  let fc := (w.samples.getLast?.map (fun x => x.fc)).getD 0
  let s := setF s (F.BRG_XSTAT_FMEAS.at b) (if lock then satU 16 (fc / 100) else 0)
  setB s (F.BRG_XSTAT_NEG.at b) (!carrier && decide (w.samples.foldl (fun n x => n + excRaw x) 0 < 0))

/-- Somewhere among the samples, the last of them taken now, the magnitude has been below 1 V for 1 ms; `old` is the SYSTIME
(+ 1) of the last sample of 1 V or more before them (R68). -/
def lowRun (s : Block) (old : Nat) (l : List ExcSample) : Bool :=
  (l.reverse.zipIdx.foldr (fun p (a : Nat × Bool) =>
    let t := s.sysTime + 1 - 25 * p.2
    (if 1000000 ≤ (excRaw p.1).natAbs then t else a.1, a.2 || decide (a.1 + 1000000 ≤ t))) (old, false)).2

/-- EXC_WINDOW_END (R67, R68, R63): a unit in the ratiometric range takes the window's samples, updates its readback and
its limits' flags. E beyond ±16 V saturates g and sets CLIP. -/
def effExcWindowEnd (u : Nat) (w : ExcWindow) (s : Block) : Out :=
  withIdx 48 u <|
    match w.samples.getLast? with
    | none => .next s
    | some last =>
      if getF s (uF u F.P_RANGE_ACT) != 4 then .next s
      else
        let b := brgBase u
        let x := unit s u
        let s := setUnit s u { x with exc := { x.exc with
          win := w.samples.reverse, winAt := s.sysTime + 1, highAt := excHighAt s x.exc.highAt w.samples
          periods := if locked s u then (excPeriod w :: x.exc.periods).take 16 else [] } }
        let s := excReadback s u w
        let low := decide ((unit s u).exc.highAt + 1000000 ≤ s.sysTime + 1)
        let high := decide (15000000 < excPeak w.samples)
        let s := setB s (F.BRG_XSTAT_EXC_LOW.at b) low
        let s := setB s (F.BRG_XSTAT_EXC_HIGH.at b) high
        let s := setB s (F.BRG_XSTAT_CM_CLAMP.at b) (cmClamped last)
        let s := if lowRun s x.exc.highAt w.samples || high || w.samples.any cmClamped || longUnlocked s u then
            raise s (uF u F.P_STATUS_EXC_RANGE) else s
        let n := w.samples.length
        .next (if w.samples.zipIdx.any (fun p =>
            decide (16000000 < (excUsed s u (s.sysTime - 25 * (n - 1 - p.2)) p.1).natAbs)) then unitFlag s u 0 else s)

/-! ## Loop cache -/

/-- LOOP_CACHE_UE (R113): an uncorrectable word of the copy of segment `id` met by the fetch of sequencer `n`, which plays
the segment from its DRAM pages from here on, until it is disarmed. -/
def effLoopCacheUe (n id : Nat) (s : Block) : Out :=
  withIdx 16 n <| withIdx 65536 id <|
    let q := seqr s n
    if !q.pins.contains id || !cachedFor s n id then .next s
    else .next (syncSeq (raise (setSeq s n { q with lcOff := q.lcOff ++ [id] }) F.MMU_STATUS_LC_ERR) n)

/-! ## The meanings -/

/-- TEMP_SAMPLE, done to the block; the queue stays. -/
def execTempSample (t : Temps) (s : State) : Host.Outcome State Fault Refusal :=
  onBlock s (effTempSample t)

/-- TEMP_STALE, done to the block; the queue stays. -/
def execTempStale (cluster : Nat) (s : State) : Host.Outcome State Fault Refusal :=
  onBlock s (effTempStale cluster)

/-- SENSE_CHECK (R49), done to the block; the queue stays. -/
def execSenseCheck (u : Nat) (isOpen : Bool) (s : State) : Host.Outcome State Fault Refusal :=
  onBlock s (effSenseCheck u isOpen)

/-- COMPLIANCE_ONSET (R50), done to the block; the queue stays. -/
def execComplianceOnset (o : Onset) (s : State) : Host.Outcome State Fault Refusal :=
  onBlock s (effComplianceOnset o.u o.lasts)

/-- OPEN_LOAD (R52), done to the block; the queue stays. -/
def execOpenLoad (u : Nat) (s : State) : Host.Outcome State Fault Refusal :=
  onBlock s (effOpenLoad u)

/-- MOD_OVL (R45), done to the block; the queue stays. -/
def execModOvl (o : Onset) (s : State) : Host.Outcome State Fault Refusal :=
  onBlock s (effModOvl o.u o.lasts)

/-- RANGE_SWITCH, done to the block; the queue stays. -/
def execRangeSwitch (u : Nat) (s : State) : Host.Outcome State Fault Refusal :=
  onBlock s (effRangeSwitch u)

/-- SW_FAIL, done to the block; the queue stays. -/
def execSwFail (u : Nat) (s : State) : Host.Outcome State Fault Refusal :=
  onBlock s (effSwFail u)

/-- TRK_LOCK (R66), done to the block; the queue stays. -/
def execTrkLock (r : UnitTrk) (s : State) : Host.Outcome State Fault Refusal :=
  onBlock s (effTrkLock r.u r.r)

/-- TRK_LOCK_LOSS (R66), done to the block; the queue stays. -/
def execTrkLockLoss (r : UnitTrk) (s : State) : Host.Outcome State Fault Refusal :=
  onBlock s (effTrkLockLoss r.u r.r)

/-- EXC_WINDOW_END (R67, R68, R63), done to the block; the queue stays. -/
def execExcWindowEnd (u : Nat) (w : ExcWindow) (s : State) : Host.Outcome State Fault Refusal :=
  onBlock s (effExcWindowEnd u w)

/-- LOOP_CACHE_UE (R113), done to the block; the queue stays. -/
def execLoopCacheUe (r : CachedSeg) (s : State) : Host.Outcome State Fault Refusal :=
  onBlock s (effLoopCacheUe r.n r.seg)

end Sys2Proof.Machine
end

