-- ==== Sys2Proof/Machine/Dispatch.lean ====
section
/-! DEFINITION. One arm per step of the part: the meaning that runs it. -/

namespace Sys2Proof.Machine

/-- The effect of a step on everything but the queue of pending steps. -/
def exec (i : Instr) (s : State) : Host.Outcome State Fault Refusal :=
  match i with
  | .nop h p => Sys2Proof.Machine.execNop h p s
  | .identify h p => Sys2Proof.Machine.execIdentify h p s
  | .getStatus h p => Sys2Proof.Machine.execGetStatus h p s
  | .modeSet h p => Sys2Proof.Machine.execModeSet h p s
  | .modeQuery h p => Sys2Proof.Machine.execModeQuery h p s
  | .segCreate h p => Sys2Proof.Machine.execSegCreate h p s
  | .segFree h p => Sys2Proof.Machine.execSegFree h p s
  | .segSeal h p => Sys2Proof.Machine.execSegSeal h p s
  | .segOpen h p => Sys2Proof.Machine.execSegOpen h p s
  | .streamRingCreate h p d => Sys2Proof.Machine.execStreamRingCreate h p d s
  | .liftSubmit h p => Sys2Proof.Machine.execLiftSubmit h p s
  | .segCompact h p => Sys2Proof.Machine.execSegCompact h p s
  | .groupDefine h p => Sys2Proof.Machine.execGroupDefine h p s
  | .stepsWrite h p d => Sys2Proof.Machine.execStepsWrite h p d s
  | .seqArm h p => Sys2Proof.Machine.execSeqArm h p s
  | .seqStart h p => Sys2Proof.Machine.execSeqStart h p s
  | .seqStop h p => Sys2Proof.Machine.execSeqStop h p s
  | .seqJump h p => Sys2Proof.Machine.execSeqJump h p s
  | .unitConfig h p => Sys2Proof.Machine.execUnitConfig h p s
  | .unitRange h p => Sys2Proof.Machine.execUnitRange h p s
  | .unitEnable h p => Sys2Proof.Machine.execUnitEnable h p s
  | .unitDisable h p => Sys2Proof.Machine.execUnitDisable h p s
  | .tableLoad h p d => Sys2Proof.Machine.execTableLoad h p d s
  | .tableSwap h p => Sys2Proof.Machine.execTableSwap h p s
  | .acqConfig h p => Sys2Proof.Machine.execAcqConfig h p s
  | .trackLoad h p d => Sys2Proof.Machine.execTrackLoad h p d s
  | .acqArm h p => Sys2Proof.Machine.execAcqArm h p s
  | .acqAbort h p => Sys2Proof.Machine.execAcqAbort h p s
  | .acqReadout h p => Sys2Proof.Machine.execAcqReadout h p s
  | .calRun h p st => Sys2Proof.Machine.execCalRun h p st s
  | .calCommit h p => Sys2Proof.Machine.execCalCommit h p s
  | .calDiscard h p => Sys2Proof.Machine.execCalDiscard h p s
  | .nvmRead h p => Sys2Proof.Machine.execNvmRead h p s
  | .nvmWrite h p d otherSlotSig => Sys2Proof.Machine.execNvmWrite h p d otherSlotSig s
  | .auditRead h p => Sys2Proof.Machine.execAuditRead h p s
  | .dramTrain h p fsp0 fsp1 => Sys2Proof.Machine.execDramTrain h p fsp0 fsp1 s
  | .dramFreq h p => Sys2Proof.Machine.execDramFreq h p s
  | .dramResume h p badWords sigBad => Sys2Proof.Machine.execDramResume h p badWords sigBad s
  | .pllConfig h p => Sys2Proof.Machine.execPllConfig h p s
  | .pllRelock h p => Sys2Proof.Machine.execPllRelock h p s
  | .gydenConfig h p => Sys2Proof.Machine.execGydenConfig h p s
  | .gydenMeasure h p => Sys2Proof.Machine.execGydenMeasure h p s
  | .pacReserve h p => Sys2Proof.Machine.execPacReserve h p s
  | .pacRelease h p => Sys2Proof.Machine.execPacRelease h p s
  | .microcodeReload h p sig backSig => Sys2Proof.Machine.execMicrocodeReload h p sig backSig s
  | .abort h p => Sys2Proof.Machine.execAbort h p s
  | .safeAll h p => Sys2Proof.Machine.execSafeAll h p s
  | .resumeFromSafe h p => Sys2Proof.Machine.execResumeFromSafe h p s
  | .ringError ring hdr => Sys2Proof.Machine.execRingError ring hdr s
  | .stepWdog ring => Sys2Proof.Machine.execStepWdog ring s
  | .journalReplay ring => Sys2Proof.Machine.execJournalReplay ring s
  | .bgMinExpiry => Sys2Proof.Machine.execBgMinExpiry s
  | .irqCoalesceExpiry => Sys2Proof.Machine.execIrqCoalesceExpiry s
  | .cstoreScrub r => Sys2Proof.Machine.execCstoreScrub r s
  | .sqTailWrite m ring v => Sys2Proof.Machine.execSqTailWrite m ring v s
  | .sqCfgWrite m ring v => Sys2Proof.Machine.execSqCfgWrite m ring v s
  | .cqCfgWrite m v => Sys2Proof.Machine.execCqCfgWrite m v s
  | .cqHeadWrite m v => Sys2Proof.Machine.execCqHeadWrite m v s
  | .key m v => Sys2Proof.Machine.execKey m v s
  | .update m v => Sys2Proof.Machine.execUpdate m v s
  | .indAddrWrite m v => Sys2Proof.Machine.execIndAddrWrite m v s
  | .indDataRead m => Sys2Proof.Machine.execIndDataRead m s
  | .indDataWrite m v => Sys2Proof.Machine.execIndDataWrite m v s
  | .indPrefetchDone m => Sys2Proof.Machine.execIndPrefetchDone m s
  | .latchingLowRead m addr => Sys2Proof.Machine.execLatchingLowRead m addr s
  | .winDataAccess m wr => Sys2Proof.Machine.execWinDataAccess m wr s
  | .descSelWrite m v => Sys2Proof.Machine.execDescSelWrite m v s
  | .pteSelWrite m v => Sys2Proof.Machine.execPteSelWrite m v s
  | .rtSelWrite m v => Sys2Proof.Machine.execRtSelWrite m v s
  | .rtGo m => Sys2Proof.Machine.execRtGo m s
  | .rtClr m => Sys2Proof.Machine.execRtClr m s
  | .swev m v => Sys2Proof.Machine.execSwev m v s
  | .force m t => Sys2Proof.Machine.execForce m t s
  | .tmrInjGo m v => Sys2Proof.Machine.execTmrInjGo m v s
  | .patrolTestGo m v => Sys2Proof.Machine.execPatrolTestGo m v s
  | .rtcSet m v => Sys2Proof.Machine.execRtcSet m v s
  | .rtcLoad => Sys2Proof.Machine.execRtcLoad s
  | .wdogKick m v => Sys2Proof.Machine.execWdogKick m v s
  | .gdatSend m v => Sys2Proof.Machine.execGdatSend m v s
  | .upRptrWrite m t v => Sys2Proof.Machine.execUpRptrWrite m t v s
  | .pkgCapWrite m v => Sys2Proof.Machine.execPkgCapWrite m v s
  | .registerWrite m addr v be => Sys2Proof.Machine.execRegisterWrite m addr v be s
  | .writeReachesAdie rgn => Sys2Proof.Machine.execWriteReachesAdie rgn s
  | .spiStatus => Sys2Proof.Machine.execSpiStatus s
  | .pcieReset k => Sys2Proof.Machine.execPcieReset k s
  | .supplyValid b => Sys2Proof.Machine.execSupplyValid b s
  | .rstNAssert => Sys2Proof.Machine.execRstNAssert s
  | .rstNRelease b => Sys2Proof.Machine.execRstNRelease b s
  | .supplyDip rail => Sys2Proof.Machine.execSupplyDip rail s
  | .supplyBelowThreshold d => Sys2Proof.Machine.execSupplyBelowThreshold d s
  | .vaonLoss => Sys2Proof.Machine.execVaonLoss s
  | .safeNAssert => Sys2Proof.Machine.execSafeNAssert s
  | .safeNRelease => Sys2Proof.Machine.execSafeNRelease s
  | .safeAnnouncement node => Sys2Proof.Machine.execSafeAnnouncement node s
  | .vioLow c => Sys2Proof.Machine.execVioLow c s
  | .vioRecover c => Sys2Proof.Machine.execVioRecover c s
  | .laneInputEdge j e => Sys2Proof.Machine.execLaneInputEdge j e s
  | .evinEdge k e => Sys2Proof.Machine.execEvinEdge k e s
  | .laneContentionCheck c pads => Sys2Proof.Machine.execLaneContentionCheck c pads s
  | .comparatorAlarm m => Sys2Proof.Machine.execComparatorAlarm m s
  | .comparatorClear m => Sys2Proof.Machine.execComparatorClear m s
  | .rtcAlarm => Sys2Proof.Machine.execRtcAlarm s
  | .watchdogExpiry => Sys2Proof.Machine.execWatchdogExpiry s
  | .wake src b => Sys2Proof.Machine.execWake src b s
  | .sleepPowerDown => Sys2Proof.Machine.execSleepPowerDown s
  | .tempSample t => Sys2Proof.Machine.execTempSample t s
  | .tempStale cluster => Sys2Proof.Machine.execTempStale cluster s
  | .senseCheck u isOpen => Sys2Proof.Machine.execSenseCheck u isOpen s
  | .complianceOnset o => Sys2Proof.Machine.execComplianceOnset o s
  | .openLoad u => Sys2Proof.Machine.execOpenLoad u s
  | .modOvl o => Sys2Proof.Machine.execModOvl o s
  | .excWindowEnd u w => Sys2Proof.Machine.execExcWindowEnd u w s
  | .trkLock r => Sys2Proof.Machine.execTrkLock r s
  | .trkLockLoss r => Sys2Proof.Machine.execTrkLockLoss r s
  | .framePlayback f => Sys2Proof.Machine.execFramePlayback f s
  | .rangeSwitch u => Sys2Proof.Machine.execRangeSwitch u s
  | .swFail u => Sys2Proof.Machine.execSwFail u s
  | .ringRead n => Sys2Proof.Machine.execRingRead n s
  | .jumpDecision n => Sys2Proof.Machine.execJumpDecision n s
  | .passEnd n => Sys2Proof.Machine.execPassEnd n s
  | .underrunHoldCheck n => Sys2Proof.Machine.execUnderrunHoldCheck n s
  | .granuleJump n => Sys2Proof.Machine.execGranuleJump n s
  | .gateRelease n => Sys2Proof.Machine.execGateRelease n s
  | .frame0 n => Sys2Proof.Machine.execFrame0 n s
  | .stopTakesEffect n => Sys2Proof.Machine.execStopTakesEffect n s
  | .carveApply n => Sys2Proof.Machine.execCarveApply n s
  | .admissionRelease n => Sys2Proof.Machine.execAdmissionRelease n s
  | .liftDescriptor ch desc data => Sys2Proof.Machine.execLiftDescriptor ch desc data s
  | .liftDescriptorEnd ch => Sys2Proof.Machine.execLiftDescriptorEnd ch s
  | .liftWaitRelease ch => Sys2Proof.Machine.execLiftWaitRelease ch s
  | .pageMove => Sys2Proof.Machine.execPageMove s
  | .retireDeferred => Sys2Proof.Machine.execRetireDeferred s
  | .loopCacheUe r => Sys2Proof.Machine.execLoopCacheUe r s
  | .eccCorrection place => Sys2Proof.Machine.execEccCorrection place s
  | .dramFreeze e => Sys2Proof.Machine.execDramFreeze e s
  | .freezeBuffersEmpty g => Sys2Proof.Machine.execFreezeBuffersEmpty g s
  | .blackoutUnderrun n => Sys2Proof.Machine.execBlackoutUnderrun n s
  | .refresh die bank inBurst => Sys2Proof.Machine.execRefresh die bank inBurst s
  | .rfm die bank row req sub w => Sys2Proof.Machine.execRfm die bank row req sub w s
  | .rhWindowReset => Sys2Proof.Machine.execRhWindowReset s
  | .scrubRead => Sys2Proof.Machine.execScrubRead s
  | .driftTrack die count drift => Sys2Proof.Machine.execDriftTrack die count drift s
  | .mr4Read codes hot => Sys2Proof.Machine.execMr4Read codes hot s
  | .acqSample u x cmon => Sys2Proof.Machine.execAcqSample u x cmon s
  | .trackTick t => Sys2Proof.Machine.execTrackTick t s
  | .uploadBlock t => Sys2Proof.Machine.execUploadBlock t s
  | .eventFire src hop => Sys2Proof.Machine.execEventFire src hop s
  | .eventDelivery => Sys2Proof.Machine.execEventDelivery s
  | .tmrFire n => Sys2Proof.Machine.execTmrFire n s
  | .evoutPulseEnd n => Sys2Proof.Machine.execEvoutPulseEnd n s
  | .gevSlotSend k => Sys2Proof.Machine.execGevSlotSend k s
  | .gevReceive k => Sys2Proof.Machine.execGevReceive k s
  | .gevApply k => Sys2Proof.Machine.execGevApply k s
  | .epoch syncErr => Sys2Proof.Machine.execEpoch syncErr s
  | .gdatFrameReceive f => Sys2Proof.Machine.execGdatFrameReceive f s
  | .gdatFrameSend => Sys2Proof.Machine.execGdatFrameSend s
  | .nodeLost n => Sys2Proof.Machine.execNodeLost n s
  | .gclkLost => Sys2Proof.Machine.execGclkLost s
  | .refLost offTolerance => Sys2Proof.Machine.execRefLost offTolerance s
  | .phaseJump => Sys2Proof.Machine.execPhaseJump s
  | .refReturn => Sys2Proof.Machine.execRefReturn s
  | .offsetMeasured deltaPs => Sys2Proof.Machine.execOffsetMeasured deltaPs s
  | .steerDone => Sys2Proof.Machine.execSteerDone s
  | .systimeStep => Sys2Proof.Machine.execSystimeStep s
  | .lockDeclared r => Sys2Proof.Machine.execLockDeclared r s
  | .lossOfLock r => Sys2Proof.Machine.execLossOfLock r s
  | .xtalFail => Sys2Proof.Machine.execXtalFail s
  | .linkFrame rgn retransmitted => Sys2Proof.Machine.execLinkFrame rgn retransmitted s
  | .linkGapEnd rgn => Sys2Proof.Machine.execLinkGapEnd rgn s
  | .linkLost rgn => Sys2Proof.Machine.execLinkLost rgn s
  | .modeCommit => Sys2Proof.Machine.execModeCommit s
  | .modeDeadline => Sys2Proof.Machine.execModeDeadline s
  | .modeApply p => Sys2Proof.Machine.execModeApply p s
  | .pacTimeout => Sys2Proof.Machine.execPacTimeout s
  | .patrolWindowClose c obj => Sys2Proof.Machine.execPatrolWindowClose c obj s
  | .tmrScrubPass => Sys2Proof.Machine.execTmrScrubPass s
  | .nvmDpdEntry => Sys2Proof.Machine.execNvmDpdEntry s
  | .stepBoundary ring peek => Sys2Proof.Machine.execStepBoundary ring peek s
  | .nvmOperationEnd ok => Sys2Proof.Machine.execNvmOperationEnd ok s
  | .calUnitFinished unit r => Sys2Proof.Machine.execCalUnitFinished unit r s
  | .pcieLinkUp => Sys2Proof.Machine.execPcieLinkUp s
  | .vaonApply => Sys2Proof.Machine.execVaonApply s
  | .x32Stop => Sys2Proof.Machine.execX32Stop s
  | .tapInstruction t => Sys2Proof.Machine.execTapInstruction t s
  | .highWordRead m addr => Sys2Proof.Machine.execHighWordRead m addr s
  | .reservedRead m addr => Sys2Proof.Machine.execReservedRead m addr s

end Sys2Proof.Machine
end

