-- ==== Sys2Proof/WellFormed.lean ====
section
/-! DEFINITION. Well-formed steps: the operands name objects that the part has, a packet's length is that of its words, and
an access has an address that its link can form. An ill-formed step is no step of the part. -/

namespace Sys2Proof

/-- A packet header whose ring, tag and flags fit their fields, with as many parameter words `n` as LEN says, 1 to 64 in
all (R287); a header with another LEN is no packet but a ring error (R288), a happening of its own. -/
def Hdr.wf (h : Hdr) (n : Nat) : Bool :=
  decide (h.ring < 4) && decide (h.tag < 256) && decide (h.flags < 256) && decide (1 ≤ h.len) && decide (h.len ≤ 64) &&
    decide (n + 1 = h.len)

/-- The word address is one that the master's link can form (R311): aligned, in BAR0, in BAR2 behind it, or in SPI's 24
bits. -/
def Master.reaches (m : Master) (a : Nat) : Bool :=
  a % 4 == 0 && decide (a < (match m with
    | .pcie => 0x50000
    | .spi => 0x1000000))

/-- A pass over the control stores (R305): an uncorrectable word lies in one of their 72 blocks. -/
def StoreScrub.wf (r : StoreScrub) : Bool :=
  match r.ue with
  | none => true
  | some x => decide (x.1 < 72)

/-- A start-up's world has four die links and eight VIO supplies. -/
def BootEnv.wf (b : BootEnv) : Bool := decide (b.linkOk.length = 4) && decide (b.vioOk.length = 8)

/-- A comparator that wakes the device is one of eight. -/
def WakeSource.wf : WakeSource → Bool
  | .rstN => true
  | .rtcAlarm => true
  | .comparator k => decide (k < 8)

/-- A group, unit or lane cluster of the part. -/
def FrameOf.wf : FrameOf → Bool
  | .group n => decide (n < 16)
  | .unit u => decide (u < 64)
  | .lanes c => decide (c < 8)

/-- A party of a mode change that exists. -/
def Party.wf : Party → Bool
  | .cdie => true
  | .unit u => decide (u < 64)
  | .lanes c => decide (c < 8)
  | .region i => decide (i < 4)
  | .node n => decide (n < 16)

/-- A block of the waveform DRAM (R269). -/
def UncorrectableError.wf (e : UncorrectableError) : Bool :=
  decide (e.block < 469762048) && Machine.requesterOk e.req e.sub && decide (e.cmd < 3) && decide (e.word < 8) &&
    decide (1 ≤ e.words) && decide (e.words ≤ 56) &&
    (!e.sig || (e.word == 0 && e.words == (if e.cmd = 2 then 56 else 8)))

/-- A place that a bit can be wrong in. -/
def EccPlace.wf : EccPlace → Bool
  | .dram block => decide (block < 469762048)
  | .sram block => decide (block < 2147483648)
  | .sineWord die bank k block =>
    decide (die < 2) && decide (bank < 2) && decide (k < 16384) && decide (block < 2147483648)
  | .window word => decide (word < 16384)

/-- An activation of one of the 262,144 rows, by a requester of Table 12-3. -/
def Activation.wf (a : Activation) : Bool := decide (a.row < 262144) && Machine.requesterOk a.req a.sub

/-- A well-formed step. -/
def Instr.wf : Instr → Bool
  | .nop h p => h.wf p.length
  | .identify h p => h.wf p.length
  | .getStatus h p => h.wf p.length
  | .modeSet h p => h.wf p.length
  | .modeQuery h p => h.wf p.length
  | .segCreate h p => h.wf p.length
  | .segFree h p => h.wf p.length
  | .segSeal h p => h.wf p.length
  | .segOpen h p => h.wf p.length
  | .streamRingCreate h p _ => h.wf p.length
  | .liftSubmit h p => h.wf p.length
  | .segCompact h p => h.wf p.length
  | .groupDefine h p => h.wf p.length
  | .stepsWrite h p _ => h.wf p.length
  | .seqArm h p => h.wf p.length
  | .seqStart h p => h.wf p.length
  | .seqStop h p => h.wf p.length
  | .seqJump h p => h.wf p.length
  | .unitConfig h p => h.wf p.length
  | .unitRange h p => h.wf p.length
  | .unitEnable h p => h.wf p.length
  | .unitDisable h p => h.wf p.length
  | .tableLoad h p _ => h.wf p.length
  | .tableSwap h p => h.wf p.length
  | .acqConfig h p => h.wf p.length
  | .trackLoad h p _ => h.wf p.length
  | .acqArm h p => h.wf p.length
  | .acqAbort h p => h.wf p.length
  | .acqReadout h p => h.wf p.length
  | .calRun h p _ => h.wf p.length
  | .calCommit h p => h.wf p.length
  | .calDiscard h p => h.wf p.length
  | .nvmRead h p => h.wf p.length
  | .nvmWrite h p _ _ => h.wf p.length
  | .auditRead h p => h.wf p.length
  | .dramTrain h p _ _ => h.wf p.length
  | .dramFreq h p => h.wf p.length
  | .dramResume h p _ _ => h.wf p.length
  | .pllConfig h p => h.wf p.length
  | .pllRelock h p => h.wf p.length
  | .gydenConfig h p => h.wf p.length
  | .gydenMeasure h p => h.wf p.length
  | .pacReserve h p => h.wf p.length
  | .pacRelease h p => h.wf p.length
  | .microcodeReload h p _ _ => h.wf p.length
  | .abort h p => h.wf p.words.length
  | .safeAll h p => h.wf p.length
  | .resumeFromSafe h p => h.wf p.length
  | .ringError ring _ => decide (ring < 4)
  | .stepWdog ring => decide (ring < 4)
  | .journalReplay ring => decide (ring < 4)
  | .bgMinExpiry => true
  | .irqCoalesceExpiry => true
  | .cstoreScrub r => r.wf
  | .sqTailWrite _ ring _ => decide (ring < 4)
  | .sqCfgWrite _ ring _ => decide (ring < 4)
  | .cqCfgWrite _ _ => true
  | .cqHeadWrite _ _ => true
  | .key _ _ => true
  | .update _ _ => true
  | .indAddrWrite _ _ => true
  | .indDataRead _ => true
  | .indDataWrite _ _ => true
  | .indPrefetchDone _ => true
  | .latchingLowRead m addr => m.reaches addr
  | .winDataAccess _ _ => true
  | .descSelWrite _ _ => true
  | .pteSelWrite _ _ => true
  | .rtSelWrite _ _ => true
  | .rtGo _ => true
  | .rtClr _ => true
  | .swev _ _ => true
  | .force _ t => decide (t < 4)
  | .tmrInjGo _ _ => true
  | .patrolTestGo _ _ => true
  | .rtcSet _ _ => true
  | .rtcLoad => true
  | .wdogKick _ _ => true
  | .gdatSend _ _ => true
  | .upRptrWrite _ t _ => decide (t < 4)
  | .pkgCapWrite _ _ => true
  | .registerWrite m addr _ be => m.reaches addr && decide (be < 16)
  | .writeReachesAdie rgn => decide (rgn < 4)
  | .spiStatus => true
  | .pcieReset _ => true
  | .supplyValid b => b.wf
  | .rstNAssert => true
  | .rstNRelease b => b.wf
  | .supplyDip rail => decide (rail < 10)
  | .supplyBelowThreshold d => decide (d.rail < 10)
  | .vaonLoss => true
  | .safeNAssert => true
  | .safeNRelease => true
  | .safeAnnouncement node => decide (node < 16)
  | .vioLow c => decide (c < 8)
  | .vioRecover c => decide (c < 8)
  | .laneInputEdge j _ => decide (j < 8)
  | .evinEdge k _ => decide (k < 8)
  | .laneContentionCheck c _ => decide (c < 8)
  | .comparatorAlarm m => decide (m.k < 8)
  | .comparatorClear m => decide (m.k < 8)
  | .rtcAlarm => true
  | .watchdogExpiry => true
  | .wake src b => src.wf && b.wf
  | .sleepPowerDown => true
  | .tempSample t => decide (t.clusters.length = 24)
  | .tempStale cluster => decide (cluster < 24)
  | .senseCheck u _ => decide (u < 64)
  | .complianceOnset o => decide (o.u < 64)
  | .openLoad u => decide (u < 64)
  | .modOvl o => decide (o.u < 64)
  | .excWindowEnd u _ => decide (u < 48)
  | .trkLock r => decide (r.u < 48)
  | .trkLockLoss r => decide (r.u < 48)
  | .framePlayback f => f.wf
  | .rangeSwitch u => decide (u < 64)
  | .swFail u => decide (u < 64)
  | .ringRead n => decide (n < 16)
  | .jumpDecision n => decide (n < 16)
  | .passEnd n => decide (n < 16)
  | .underrunHoldCheck n => decide (n < 16)
  | .granuleJump n => decide (n < 16)
  | .gateRelease n => decide (n < 16)
  | .frame0 n => decide (n < 16)
  | .stopTakesEffect n => decide (n < 16)
  | .carveApply n => decide (n < 16)
  | .admissionRelease n => decide (n < 16)
  | .liftDescriptor ch desc _ => decide (ch < 8) && decide (desc.length = 8)
  | .liftDescriptorEnd ch => decide (ch < 8)
  | .liftWaitRelease ch => decide (ch < 8)
  | .pageMove => true
  | .retireDeferred => true
  | .loopCacheUe r => decide (r.n < 16) && decide (r.seg < 65536)
  | .eccCorrection place => place.wf
  | .dramFreeze e => e.wf
  | .freezeBuffersEmpty g => decide (g < 16)
  | .blackoutUnderrun n => decide (n < 16)
  | .refresh die bank _ => decide (die < 4) && decide (bank < 16)
  | .rfm die bank row req sub w => decide (die < 4) && decide (bank < 16) && (w.before ++ [Activation.mk row req sub]).all Activation.wf &&
      decide (1 ≤ w.limit)
  | .rhWindowReset => true
  | .scrubRead => true
  | .driftTrack die _ _ => decide (die < 4)
  | .mr4Read codes _ => decide (codes.length = 4)
  | .acqSample u _ _ => decide (u < 32)
  | .trackTick t => decide (t < 4)
  | .uploadBlock t => decide (t < 4)
  | .eventFire src _ => decide (src < 192)
  | .eventDelivery => true
  | .tmrFire n => decide (n < 8)
  | .evoutPulseEnd n => decide (n < 8)
  | .gevSlotSend k => decide (k < 8)
  | .gevReceive k => decide (k < 8)
  | .gevApply k => decide (k < 8)
  | .epoch _ => true
  | .gdatFrameReceive f => decide (f.node < 16)
  | .gdatFrameSend => true
  | .nodeLost n => decide (n < 16)
  | .gclkLost => true
  | .refLost _ => true
  | .phaseJump => true
  | .refReturn => true
  | .offsetMeasured _ => true
  | .steerDone => true
  | .systimeStep => true
  | .lockDeclared r => decide (r.loop < 4)
  | .lossOfLock r => decide (r.loop < 4)
  | .xtalFail => true
  | .linkFrame rgn _ => decide (rgn < 4)
  | .linkGapEnd rgn => decide (rgn < 4)
  | .linkLost rgn => decide (rgn < 4)
  | .modeCommit => true
  | .modeDeadline => true
  | .modeApply p => p.wf
  | .pacTimeout => true
  | .patrolWindowClose c _ => decide (c < 9)
  | .tmrScrubPass => true
  | .nvmDpdEntry => true
  | .stepBoundary ring v => decide (ring < 4) && v.bad.all (fun x => decide (x.1 < 72))
  | .nvmOperationEnd _ => true
  | .calUnitFinished unit _ => decide (unit < 104)
  | .pcieLinkUp => true
  | .vaonApply => true
  | .x32Stop => true
  | .tapInstruction _ => true
  | .highWordRead m addr => m.reaches addr
  | .reservedRead m addr => m.reaches addr

end Sys2Proof
end

