-- ==== Sys2Proof/Safety.lean ====
section
/-! DEFINITION. The words that the claims are written in: a good state, a step that stops, a command that passes the checks
every command passes. -/

namespace Sys2Proof.Machine

/-- The addressed memories stand in canonical form: the waveform DRAM, the step memory, the table banks, the NVM, the command
window and the host's memory. -/
def Block.memWf (s : Block) : Bool :=
  Tbl.wf (fun _ => (0 : Byte)) s.mem.dram && Tbl.wf (fun _ => 0) s.mem.steps && Tbl.wf (fun _ => (0 : Word)) s.tables &&
    Tbl.wf (fun _ => (255 : Byte)) s.nvm.bytes && Tbl.wf (fun _ => (0 : Byte)) s.cmd.window &&
    Tbl.wf (fun _ => (0 : Byte)) s.cmd.hostMem

/-- The memories and numbered objects of the block stand in canonical form: keys strictly rising, no entry equal to what an
unlisted key reads as. -/
def Block.canonical (s : Block) : Bool :=
  s.memWf &&
  Tbl.wf resetWord s.regs && Tbl.wf resetWord s.act &&
    Tbl.wf (fun _ => ({} : Group)) s.groups && Tbl.wf (fun _ => ({} : UnitSt)) s.units &&
    Tbl.wf (fun _ => ({} : LaneSt)) s.lanes && Tbl.wf (fun _ => ({} : SeqSt)) s.seqs

/-- Every step that waits is well formed. -/
def State.wellQueued (s : State) : Bool := s.pending.all Instr.wf

/-- A step that stops. -/
def stops (o : Host.Outcome State Fault Refusal) : Bool :=
  match o with
  | .next _ => false
  | .fault _ => true
  | .refused _ => true

/-- Only the notes of the register interface about the present core cycle differ: what a host and the hardware have written in
it, the synthesis registers that no strobe has taken, and who has made an access. -/
def cycleNotes (s t : HostIf) : HostIf :=
  { s with cycleAt := t.cycleAt, cycleWr := t.cycleWr, synNew := t.synNew, hwAt := t.hwAt, hwSet := t.hwSet, hwMax := t.hwMax,
           slotAt := t.slotAt, slotBy := t.slotBy }

/-- The block after an access is the block before it but for registers (and the differing copies of triplicated bits, which a
write restores) and the notes about the present core cycle, and every register word outside `l` is the one before, programmed
and in force. -/
def regsOnly (s t : Block) (l : List Nat) : Prop :=
  t = { s with regs := t.regs, act := t.act, flips := t.flips, hostIf := cycleNotes s.hostIf t.hostIf } ∧
    ∀ a, a ∉ l → getW t a = getW s a ∧ getP t a = getP s a

/-- No error that a read has met waits to be dealt with, as between any two steps. -/
def quiet (s : Block) : Bool := s.dramc.hits.isEmpty

/-- The counter of the accesses of a master. -/
def accReg (m : Master) : Nat :=
  match m with
  | .pcie => R.GLOBAL_ACC_PCIE
  | .spi => R.GLOBAL_ACC_SPI

/-- The word that a master's last read returned. -/
def lastRead (s : Block) (m : Master) : Word :=
  match m with
  | .pcie => s.hostIf.readP
  | .spi => s.hostIf.readS

/-- The packet `h` with opcode `op` and parameter words `p` is the next that its ring gives, is as long as its command
asks, and sets no reserved flag, encoding or bit (R287), in a mode other than SLEEP (R350), with no mode change that comes
before it (R351) and DRAM serving requests where it needs them (R276, R279): the command's own checks come next. -/
def takes (s : Block) (h : Hdr) (op : Nat) (p : List Word) (lens : Nat → Bool) (masks : List Nat) : Bool :=
  h.wf p.length && packetReady s h && packetHeld s h op p && lens h.len && decide (h.flags < 8) && reservedClear p masks && decide (modeOf s ≠ 5) &&
    !modeBusy s h op p && !reservedCode op p && !dramStalls s op p

end Sys2Proof.Machine
end

