-- ==== Sys2Proof/Certificates/Slice0/Obligations.lean ====
section
/-! DEFINITION. The statements for the provers. -/

open Sys2Proof Sys2Proof.Machine

/-- With a step waiting, a step of the machine is exec of the front of the queue on the state with the rest of the
queue. (95_what_each_step_holds.md) -/
def Obligations.StepRunsFront : Prop :=
  ∀ (c : Instr) (b : Block) (q : List Instr), step ⟨b, c :: q⟩ = exec c ⟨b, q⟩

/-- On an empty queue a step lets 5 ns pass. Where no commit edge of an acquisition unit and no die-link write falls
due in it, device time advances, SYSTIME advances while the part runs, and completions held are posted as far as the
ring has room; with none held, no strobe's pend bit to clear, no selector written in the cycle, and without VAON or
with the 32 kHz oscillator stopped, nothing else changes (DESIGN CHOICE of log entry 1: the table has no row for a
tick). (11_clocks.md, 13_command_processor.md, 14_registers.md, 16_modes_power_faults.md) -/
def Obligations.EmptyQueueIdles : Prop :=
  ∀ (b : Block), (∃ t, step ⟨b, []⟩ = .next ⟨t, []⟩) ∧
    ((∀ x ∈ b.strobes, b.sysTime + 5 < x.due ∨ x.tgt < 64 ∨ 96 ≤ x.tgt) → (∀ w ∈ b.linkQ, b.now + 5 < w.sent + 2000) →
      ∃ u, step ⟨b, []⟩ = .next ⟨flushHeld 64 u, []⟩ ∧ u.now = b.now + 5 ∧
        u.sysTime = (if awake b then b.sysTime + 5 else b.sysTime) ∧ u.cmd = b.cmd ∧ u.units = b.units ∧ u.mem = b.mem ∧
        (b.cmd.held = [] → flushHeld 64 u = u) ∧
        (writtenNow b R.MMU_DESC_SEL = none → writtenNow b R.MMU_PTE_SEL = none → b.hostIf.ugClr = [] →
          (b.aon.on && flag b F.CLOCK_X32_STAT_RUN) = false → u = { b with now := u.now, sysTime := u.sysTime }))

/-- In every state every well-formed command or happening answers a next state, and the queue behind it is untouched.
(95_what_each_step_holds.md) -/
def Obligations.WellFormedStepsAnswer : Prop :=
  ∀ (c : Instr) (b : Block) (q : List Instr), c.wf = true → ∃ t, exec c ⟨b, q⟩ = .next ⟨t, q⟩

/-- From every state whose waiting steps are well formed, whatever the block holds, a step answers a next state whose
queue is the old one less its front, and whose waiting steps are again well formed. (95_what_each_step_holds.md) -/
def Obligations.QueueInvariant : Prop :=
  ∀ (s : State), s.wellQueued = true →
    ∃ t, step s = .next t ∧ t.pending = s.pending.tail ∧ t.wellQueued = true

/-- Right after reset nothing waits, every register reads the Reset column of its block map, and the memories stand in
canonical form. (14_registers.md, 17_host_links_startup.md) -/
def Obligations.ResetMeetsInvariants : Prop :=
  State.reset.pending = [] ∧ State.reset.wellQueued = true ∧ State.reset.toBlock.canonical = true ∧
    ∀ a, getW State.reset.toBlock a = resetWord a ∧ getP State.reset.toBlock a = resetWord a

/-- A happening at a sequencer, unit, lane cluster, region, ring, engine or comparator number that the part does not
have ends in the fault noSuchObject. (01_architecture.md, 95_what_each_step_holds.md) -/
def Obligations.MissingObjectsFault : Prop :=
  ∀ (b : Block) (q : List Instr) (n k : Nat) (l : Bool) (mv : List Int),
    (16 ≤ n → ∀ c ∈ [Instr.ringRead n, .jumpDecision n, .passEnd n, .underrunHoldCheck n, .granuleJump n, .gateRelease n,
      .frame0 n, .stopTakesEffect n, .carveApply n, .admissionRelease n, .safeAnnouncement n, .nodeLost n, .loopCacheUe ⟨n, k⟩],
      exec c ⟨b, q⟩ = .fault .noSuchObject) ∧
    (64 ≤ n → ∀ c ∈ [Instr.openLoad n, .modOvl ⟨n, l⟩, .complianceOnset ⟨n, l⟩, .rangeSwitch n, .swFail n],
      exec c ⟨b, q⟩ = .fault .noSuchObject) ∧
    (8 ≤ n → ∀ c ∈ [Instr.vioLow n, .vioRecover n, .comparatorAlarm ⟨n, mv⟩, .comparatorClear ⟨n, mv⟩, .tmrFire n, .evoutPulseEnd n,
      .gevSlotSend n, .gevReceive n, .gevApply n], exec c ⟨b, q⟩ = .fault .noSuchObject) ∧
    (4 ≤ n → ∀ c ∈ [Instr.stepWdog n, .journalReplay n, .linkLost n, .linkGapEnd n, .trackTick n, .uploadBlock n,
      .writeReachesAdie n, .lossOfLock ⟨n, l⟩, .lockDeclared ⟨n, k⟩], exec c ⟨b, q⟩ = .fault .noSuchObject)

/-- A NOP of any length completes OK in one step and changes nothing but the command path. IDENTIFY writes its 64-byte
identity block, whose first word is 0x4816, to its destination and returns the stepping. GET_STATUS copies 1 to 16
registers to its destination and returns the first; where WIN_DATA is among them, the read of the window is made
first, and an error it meets is dealt with. MODE_QUERY returns the mode and the regions in SAFE. SAFE_ALL takes the
package to SAFE with cause 1, a frequency change in progress first completing, and completes OK; while a
MICROCODE_RELOAD runs, or BACKGROUND has the step, it acts at once and its packet stays. IDENTIFY and GET_STATUS to a
destination that passes the window's end complete BAD_PARAM. Completion (exec answers this next state, under
conditions on state and operands alone) is stated of: nop, identify, getStatus, modeQuery, safeAll.
(13_command_processor.md, 16_modes_power_faults.md) -/
def Obligations.GeneralCommands : Prop :=
  ∀ (b : Block) (q : List Instr) (h : Hdr) (p : List Word),
    (takes b h 0x00 p (fun _ => true) [] = true →
      exec (.nop h p) ⟨b, q⟩ = .next ⟨finish h 0x00 p [] (.done (takePacket b h 0x00) Sts.ok 0 1 0), q⟩) ∧
    (takes b h 0x01 p (· == 3) [0xFFFFFFFF, 0xFFFFFFFF] = true → destOk (takePacket b h 0x01) h (pw64 p 1) 64 = true →
      (identity (takePacket b h 0x01)).length = 16 ∧ (identity (takePacket b h 0x01)).head? = some 0x4816 ∧
      exec (.identify h p) ⟨b, q⟩ = .next ⟨finish h 0x01 p [] (.done (toHost (takePacket b h 0x01) h (pw64 p 1)
        (wordsBytes (identity (takePacket b h 0x01)))) Sts.ok 0 1 (getW b R.GLOBAL_STEPPING).toNat), q⟩) ∧
    (takes b h 0x01 p (· == 3) [0xFFFFFFFF, 0xFFFFFFFF] = true → destOk (takePacket b h 0x01) h (pw64 p 1) 64 = false →
      exec (.identify h p) ⟨b, q⟩ = .next ⟨finish h 0x01 p [] (.done (takePacket b h 0x01) Sts.badParam 0 1 0), q⟩) ∧
    (takes b h 0x02 p (· == 5) [0x3FFFC, 0x1F, 0xFFFFFFFF, 0xFFFFFFFF] = true →
      let t := takePacket b h 0x02
      let n := pb p 2 4 0
      let win := decide (pw p 1 ≤ R.MMU_WIN_DATA) && decide (R.MMU_WIN_DATA < pw p 1 + 4 * n)
      let o := observeAll (if win then winRequest t 8 0 0 else t) (pw p 1) n
      let l := snapshot o (pw p 1) n
      (1 ≤ n → n ≤ 16 → destOk t h (pw64 p 3) (4 * n) = true →
        exec (.getStatus h p) ⟨b, q⟩ = .next ⟨afterReads (finish h 0x02 p [] (.done
          { toHost o h (pw64 p 3) (wordsBytes l) with free := o.free + n } Sts.ok 0 1 (l.headD 0).toNat)), q⟩) ∧
      (destOk t h (pw64 p 3) (4 * n) = false → quiet b = true →
        exec (.getStatus h p) ⟨b, q⟩ = .next ⟨finish h 0x02 p [] (.done t Sts.badParam 0 1 0), q⟩)) ∧
    (∀ s, quiet s = true → afterReads s = s) ∧
    (takes b h 0x09 p (· == 1) [] = true → modeOf b ≠ 0 →
      exec (.modeQuery h p) ⟨b, q⟩ = .next ⟨finish h 0x09 p [] (.done (takePacket b h 0x09) Sts.ok 0 1
        (getF b F.GLOBAL_MODE_CUR + getF b F.GLOBAL_MODE_RGN_SAFE * 2 ^ 12)), q⟩) ∧
    (takes b h 0xF1 p (· == 1) [] = true → safeAtOnce b h = false → modeOf b ≠ 0 →
      exec (.safeAll h p) ⟨b, q⟩ =
        .next ⟨finish h 0xF1 p [] (.done (packageSafe (finishFreq (takePacket b h 0xF1)) 1) Sts.ok 0 1 0), q⟩) ∧
    (safeAtOnce b h = true → exec (.safeAll h p) ⟨b, q⟩ = .next ⟨settleJobs (packageSafe b 1), q⟩)

/-- Taking a packet of LEN words moves its ring's HEAD past it modulo the ring's size, shows its opcode, tag and ring
in CUR, and changes nothing outside the HOSTCMD block's registers and the command path. (13_command_processor.md) -/
def Obligations.TakenPacketFrame : Prop :=
  ∀ (b : Block) (h : Hdr) (op : Nat), h.ring < 4 → h.tag < 256 → op < 256 →
    getF (takePacket b h op) (sqF h.ring F.HOSTCMD_SQ0_HEAD_IDX) =
      (getF b (sqF h.ring F.HOSTCMD_SQ0_HEAD_IDX) + h.len) % sqSize b h.ring % 2 ^ 16 ∧
    getF (takePacket b h op) F.HOSTCMD_CUR_VALID = 1 ∧ getF (takePacket b h op) F.HOSTCMD_CUR_OPCODE = op ∧
    getF (takePacket b h op) F.HOSTCMD_CUR_TAG = h.tag ∧ getF (takePacket b h op) F.HOSTCMD_CUR_RING = h.ring ∧
    (∀ a, a < 0x1000 ∨ 0x2000 ≤ a → getW (takePacket b h op) a = getW b a ∧ getP (takePacket b h op) a = getP b a) ∧
    takePacket b h op = { b with regs := (takePacket b h op).regs, act := (takePacket b h op).act,
                                 cmd := (takePacket b h op).cmd }

/-- Where the completion ring has room and none is held, a completion that QUIET does not suppress writes its four
words, tag, ring, opcode and PHASE, then status and DETAIL, then STEPS, then RESULT, at 16 × TAIL above the ring's
base in host memory, counts the command, and moves TAIL on by one modulo the size of the ring.
(13_command_processor.md) -/
def Obligations.CompletionPosted : Prop :=
  ∀ (s : Block) (c : Completion), cqRoom s = true → s.cmd.held = [] → flag s F.HOSTCMD_CQ_CFG_LOC = false →
    (c.status ≠ Sts.ok ∨ c.h.flags.testBit 2 = false) →
    getF (complete s c) F.HOSTCMD_CQ_TAIL_IDX =
      (getF s F.HOSTCMD_CQ_TAIL_IDX + 1) % 2 ^ getF s F.HOSTCMD_CQ_CFG_LOG2 % 2 ^ 16 ∧
    getF (complete s c) F.HOSTCMD_CMD_COUNT_COUNT = (getF s F.HOSTCMD_CMD_COUNT_COUNT + 1) % 2 ^ 32 ∧
    (complete s c).cmd.held = [] ∧
    ∀ i, i < 16 → Tbl.get (fun _ => (0 : Byte)) (complete s c).cmd.hostMem
      (getF s F.HOSTCMD_CQ_BASE_LO_ADDR + getF s F.HOSTCMD_CQ_BASE_HI_ADDR * 2 ^ 32 +
        16 * getF s F.HOSTCMD_CQ_TAIL_IDX + i) = (wordsBytes (entryWords s c)).getD i 0

/-- While the completion ring has no room, a completion that QUIET does not suppress is held behind those already
held, HOSTCMD.STATUS.CPL_HELD is set and STATE.CPL_HELD counts what is held; an OK completion with QUIET posts nothing
and is only counted. (13_command_processor.md) -/
def Obligations.CompletionHeld : Prop :=
  ∀ (s : Block) (c : Completion),
    (cqRoom (countCmd s c) = false → (c.status ≠ Sts.ok ∨ c.h.flags.testBit 2 = false) →
      (complete s c).cmd.held = s.cmd.held ++ [c] ∧ flag (complete s c) F.HOSTCMD_STATUS_CPL_HELD = true ∧
      getF (complete s c) F.HOSTCMD_STATE_CPL_HELD = min 64 (s.cmd.held.length + 1)) ∧
    (c.status = Sts.ok → c.h.flags.testBit 2 = true → complete s c = incF s F.HOSTCMD_CMD_COUNT_COUNT)

/-- A completion with a status other than OK and PARTIAL, held or posted, increments ERR_COUNT and records its opcode,
ring, tag and status in LAST_ERR; one with OK or PARTIAL leaves both. (13_command_processor.md) -/
def Obligations.ErrorsAreCounted : Prop :=
  ∀ (s : Block) (c : Completion), c.op < 256 → c.h.ring < 4 → c.h.tag < 256 → c.status < 256 →
    (Sts.partially < c.status →
      getF (countCmd s c) F.HOSTCMD_ERR_COUNT_COUNT =
        (getF s F.HOSTCMD_ERR_COUNT_COUNT + 1) % 2 ^ (F.HOSTCMD_ERR_COUNT_COUNT.hi + 1 - F.HOSTCMD_ERR_COUNT_COUNT.lo) ∧
      getF (countCmd s c) F.HOSTCMD_LAST_ERR_OPCODE = c.op ∧ getF (countCmd s c) F.HOSTCMD_LAST_ERR_RING = c.h.ring ∧
      getF (countCmd s c) F.HOSTCMD_LAST_ERR_TAG = c.h.tag ∧ getF (countCmd s c) F.HOSTCMD_LAST_ERR_STATUS = c.status) ∧
    (c.status ≤ Sts.partially → countCmd s c = incF s F.HOSTCMD_CMD_COUNT_COUNT)

/-- For every command of a ring that exists, a packet that is not next to be taken, or that is not what stands at HEAD
of its ring, changes nothing. One that is next completes BUSY where it asks for a mode change while one is in
progress, else BAD_LENGTH where its length is not the command's, else BAD_PARAM where a reserved flag, bit or encoding
is set, else STATE in SLEEP, in each case with STEPS 0 and nothing but the command path changed. One that needs DRAM
while the controller serves no request stays at HEAD (log entries 7, 46). Any other is taken, and its command's own
checks and effect follow. (13_command_processor.md, 16_modes_power_faults.md) -/
def Obligations.BadPacketsRefused : Prop :=
  ∀ (b : Block) (h : Hdr) (op : Nat) (p d : List Word) (lens : Nat → Bool) (masks : List Nat)
    (body : Block → List Word → CmdRes), h.wf p.length = true →
    let run := runCmd b h op p d lens masks body
    let ends := fun st => Host.Outcome.next (φ := Fault) (ρ := Refusal) (complete (takePacket b h op) ⟨h, op, st, 0, 0, 0⟩)
    let next := packetReady b h = true ∧ packetHeld b h op p = true
    let sound := lens h.len = true ∧ h.flags < 8 ∧ reservedClear p masks = true ∧ reservedCode op p = false
    ((packetReady b h = false ∨ packetHeld b h op p = false) → run = .next b) ∧
    (next → modeBusy b h op p = true → run = ends Sts.busy) ∧
    (next → modeBusy b h op p = false → lens h.len = false → run = ends Sts.badLength) ∧
    (next → modeBusy b h op p = false → lens h.len = true →
      (8 ≤ h.flags ∨ reservedClear p masks = false ∨ reservedCode op p = true) → run = ends Sts.badParam) ∧
    (next → modeBusy b h op p = false → sound → modeOf b = 5 → run = ends Sts.state) ∧
    (next → modeBusy b h op p = false → sound → modeOf b ≠ 5 → dramStalls b op p = true → run = .next b) ∧
    (next → modeBusy b h op p = false → sound → modeOf b ≠ 5 → dramStalls b op p = false →
      run = .next (finish h op p d (body (takePacket b h op) p)))

/-- With the command path serving, an enabled ring that has words waiting and no command in progress, a header whose
LEN is 0 or above 64 disables the ring, sets its bit of STATUS.RING_ERR, raises the error interrupt, and completes
BAD_LENGTH with DETAIL 0xFFFF, tag and opcode from the header; a failed read does the same with tag and opcode 0, and
one of a ring in host memory is reported by AER too. A header that is not the one at HEAD of the ring, or whose LEN is
sound, changes nothing. Completion (exec answers this next state, under conditions on state and operands alone) is
stated of: ringError. (13_command_processor.md) -/
def Obligations.RingErrors : Prop :=
  ∀ (b : Block) (q : List Instr) (r : Nat) (w : Word), r < 4 → ueServes b = true →
    flag b (sqF r F.HOSTCMD_SQ0_CFG_EN) = true → sqAvail b r ≠ 0 → inProgress b r = none →
    (headerHeld b r w = true → (bits w 15 8 = 0 ∨ 64 < bits w 15 8) → ∃ u, u.cmd.held = b.cmd.held ∧
      flag u (sqF r F.HOSTCMD_SQ0_CFG_EN) = false ∧ flag u ⟨R.HOSTCMD_STATUS, r, r⟩ = true ∧
      flag u F.HOSTCMD_IRQ_STAT_ERR_PEND = true ∧
      exec (.ringError r (some w)) ⟨b, q⟩ =
        .next ⟨complete u ⟨⟨r, bits w 23 16, 0, 1⟩, bits w 31 24, Sts.badLength, 0xFFFF, 0, 0⟩, q⟩) ∧
    (∃ u, u.cmd.held = b.cmd.held ∧ u.cmd.aer = (if inWindow b r = true then b.cmd.aer else b.cmd.aer + 1) ∧
      flag u (sqF r F.HOSTCMD_SQ0_CFG_EN) = false ∧ flag u ⟨R.HOSTCMD_STATUS, r, r⟩ = true ∧
      exec (.ringError r none) ⟨b, q⟩ = .next ⟨complete u ⟨⟨r, 0, 0, 1⟩, 0, Sts.badLength, 0xFFFF, 0, 0⟩, q⟩) ∧
    ((headerHeld b r w = false ∨ (1 ≤ bits w 15 8 ∧ bits w 15 8 ≤ 64)) → exec (.ringError r (some w)) ⟨b, q⟩ = .next ⟨b, q⟩)

/-- A step that reaches 4,096 cycles is abandoned with INTERNAL, counted, flagged and reported to PATROL, whether it
is a later step of a stepped command or the first of the packet at HEAD, which is then taken; a replayed step is
counted with its opcode; after BG_MIN µs without a step a BACKGROUND ring with work is due; after COAL_US µs the
waiting entries raise the completion interrupt; a step boundary gives a command in progress its next step, and
completes a packet with an unassigned opcode with BAD_OPCODE. Completion (exec answers this next state, under
conditions on state and operands alone) is stated of: stepWdog, journalReplay, bgMinExpiry, irqCoalesceExpiry,
stepBoundary. (13_command_processor.md) -/
def Obligations.CommandPathHappenings : Prop :=
  ∀ (b : Block) (q : List Instr),
    (∀ r j, r < 4 → inProgress b r = some j →
      (steppedOps.contains j.op = true →
        exec (.stepWdog r) ⟨b, q⟩ = .next ⟨endReload (settleJobs (patrolEvent (cutJob (incF (cmdStatus b F.HOSTCMD_STATUS_STEP_WDOG)
          F.HOSTCMD_WDOG_COUNT) j Sts.internal) 8 0)), q⟩) ∧
      exec (.journalReplay r) ⟨b, q⟩ = .next ⟨incF (setF (incF (cmdStatus b F.HOSTCMD_STATUS_JRNL_REPLAY)
        F.HOSTCMD_JRNL_REPLAYS) F.HOSTCMD_JRNL_OPCODE j.op) F.PATROL_RECOVERIES_COUNT, q⟩) ∧
    (∀ r (w : Word), r < 4 → inProgress b r = none → nextHeader b r = some w →
      let h : Hdr := ⟨r, bits w 23 16, bits w 7 0, bits w 15 8⟩
      1 ≤ h.len → h.len ≤ 64 → packetReady b h = true →
      exec (.stepWdog r) ⟨b, q⟩ = .next ⟨settleJobs (complete (patrolEvent (incF (cmdStatus (takePacket b h (bits w 31 24))
        F.HOSTCMD_STATUS_STEP_WDOG) F.HOSTCMD_WDOG_COUNT) 8 0) ⟨h, bits w 31 24, Sts.internal, 0, 0, 0⟩), q⟩) ∧
    (ringWork b 3 = true →
      b.cmd.bgLast + (if getF b F.HOSTCMD_ARB_BG_MIN = 0 then 1000 else getF b F.HOSTCMD_ARB_BG_MIN) * 1000 ≤ b.now →
      exec .bgMinExpiry ⟨b, q⟩ = .next ⟨{ b with cmd := { b.cmd with bgDue := true } }, q⟩) ∧
    (getF b F.HOSTCMD_IRQ_CFG_COAL_US ≠ 0 → b.cmd.coalCnt ≠ 0 →
      b.cmd.coalFrom + getF b F.HOSTCMD_IRQ_CFG_COAL_US * 1000 ≤ b.now →
      ∃ t, exec .irqCoalesceExpiry ⟨b, q⟩ = .next ⟨t, q⟩ ∧ t.cmd.coalCnt = 0 ∧
        flag t F.HOSTCMD_IRQ_STAT_CPL_PEND = true ∧ t.cmd.jobs = b.cmd.jobs ∧ t.cmd.hostMem = b.cmd.hostMem) ∧
    (∀ r (w : Word), r < 4 → flag b F.HOSTCMD_CTRL_EN = true → getF b F.HOSTCMD_STATE_UE_STATE = 2 →
      settleJobs b = b → mayStep b r = true →
      (∀ j, inProgress b r = some j → (dramStalled b = false ∨ dramOps.contains j.op = false) →
        exec (.stepBoundary r ⟨none, none⟩) ⟨b, q⟩ = .next ⟨afterReads (endReload (settleJobs (stepJob b j))), q⟩) ∧
      (inProgress b r = none → assignedOps.contains (bits w 31 24) = false → 1 ≤ bits w 15 8 →
        bits w 15 8 ≤ 64 → nextHeader b r = some w → quiet b = true →
        packetReady b ⟨r, bits w 23 16, bits w 7 0, bits w 15 8⟩ = true →
        exec (.stepBoundary r ⟨some w, none⟩) ⟨b, q⟩ = .next ⟨complete
          (takePacket b ⟨r, bits w 23 16, bits w 7 0, bits w 15 8⟩ (bits w 31 24))
          ⟨⟨r, bits w 23 16, bits w 7 0, bits w 15 8⟩, bits w 31 24, Sts.badOpcode, 0, 0, 0⟩, q⟩))

/-- An ABORT by tag whose named commands are all abortable ends each of them, counts them in RESULT and completes OK;
where one named command is not abortable it completes STATE and ends nothing. ABORT of ALL ends every abortable
command of the ring, removes the packets between HEAD and TAIL, and counts both in RESULT. After each, waiting
commands are looked at. Completion (exec answers this next state, under conditions on state and operands alone) is
stated of: abort. (13_command_processor.md) -/
def Obligations.AbortEffect : Prop :=
  ∀ (b : Block) (q : List Instr) (h : Hdr) (p : AbortPacket), takes b h 0xF0 p.words (· == 2) [0x1FF03] = true → modeOf b ≠ 0 →
    let t := takePacket b h 0xF0
    let l := abortNames t p.words
    (pb p.words 1 16 16 = 0 → (∀ j ∈ l, abortable j.op = true) →
      exec (.abort h p) ⟨b, q⟩ = .next ⟨settleJobs (finish h 0xF0 p.words [] (.done (l.foldl abortJob t) Sts.ok 0 1 l.length)), q⟩) ∧
    (pb p.words 1 16 16 = 0 → (∃ j ∈ l, abortable j.op = false) →
      exec (.abort h p) ⟨b, q⟩ = .next ⟨settleJobs (finish h 0xF0 p.words [] (.done t Sts.state 0 1 0)), q⟩) ∧
    (pb p.words 1 16 16 = 1 →
      let m := l.filter (fun j => abortable j.op)
      let d := dropRing (m.foldl abortJob t) (pb p.words 1 1 0) p.headers
      exec (.abort h p) ⟨b, q⟩ = .next ⟨settleJobs (finish h 0xF0 p.words [] (.done d.1 Sts.ok 0 1 (m.length + d.2))), q⟩)

/-- Over a ready link, in the master's cycle (R313), writing 0x0000C35A to GLOBAL.KEY opens the writing master's lock;
writing 0 closes it and records nothing; any other value closes it, increments KEYFAIL (saturating) and sets
STATUS.KEY_FAIL; the other master's lock and every register but these and the access counter are unchanged. Completion
(exec answers this next state, under conditions on state and operands alone) is stated of: key. (14_registers.md) -/
def Obligations.KeyLock : Prop :=
  ∀ (a : Block) (q : List Instr) (m : Master) (v : Word), linkReady a m = true →
    let b := atSlot a m
    ∃ t, exec (.key m v) ⟨a, q⟩ = .next ⟨t, q⟩ ∧
      regsOnly b t [accReg m, R.GLOBAL_KEYSTAT, R.GLOBAL_KEYFAIL, R.GLOBAL_STATUS] ∧
      (∀ m', m' ≠ m → flag t (keyF m') = flag b (keyF m')) ∧
      flag t (keyF m) = decide (v = 0xC35A) ∧
      (v = 0xC35A ∨ v = 0 → getF t F.GLOBAL_KEYFAIL_COUNT = getF b F.GLOBAL_KEYFAIL_COUNT ∧
        getW t R.GLOBAL_STATUS = getW b R.GLOBAL_STATUS) ∧
      (v ≠ 0xC35A → v ≠ 0 → getF t F.GLOBAL_KEYFAIL_COUNT = min (getF b F.GLOBAL_KEYFAIL_COUNT + 1) (2 ^ 32 - 1) ∧
        flag t F.GLOBAL_STATUS_KEY_FAIL = true)

/-- For every guarded register, the bits that a locked master's write may change hold no keyed bit and are otherwise
all the bits software writes; a write that would have changed a keyed bit increments LOCKED_WR.COUNT (saturating),
records the word address in LOCKED_WR.WADDR and sets STATUS.LOCKED_WR; one that would not records nothing. (R318) -/
def Obligations.LockedWrites : Prop :=
  ∀ (s : Block) (m : Master) (d : RegDef) (a old v : Nat), regDef a = some d → d.key ≠ 0 → flag s (keyF m) = false → a < 2 ^ 18 →
    (∀ i, (writable s m d a v).testBit i = (d.rw.testBit i && !d.key.testBit i)) ∧
    ((old ^^^ v) &&& d.key ≠ 0 →
      getF (keyCheck s m d a old v) F.GLOBAL_LOCKED_WR_COUNT = min (getF s F.GLOBAL_LOCKED_WR_COUNT + 1) (2 ^ 16 - 1) ∧
      getF (keyCheck s m d a old v) F.GLOBAL_LOCKED_WR_WADDR = a / 4 ∧
      flag (keyCheck s m d a old v) F.GLOBAL_STATUS_LOCKED_WR = true) ∧
    ((old ^^^ v) &&& d.key = 0 → keyCheck s m d a old v = s)

/-- An open lock lets a write of a guarded register reach every bit that software writes, and is closed by it whether
or not the write changes a value; a write of an unguarded register leaves the lock as it is. (14_registers.md) -/
def Obligations.OpenLockUsedOnce : Prop :=
  ∀ (s : Block) (m : Master) (d : RegDef) (a old v : Nat),
    (d.key ≠ 0 → flag s (keyF m) = true → a ≠ R.GLOBAL_CTRL → writable s m d a v = d.rw ∧
      keyCheck s m d a old v = setF s (keyF m) 0) ∧
    (d.key = 0 → keyCheck s m d a old v = s)

/-- GLOBAL.CTRL is the one register of masked fields: a write of v changes bit i of its three assigned bits only where
bit 16 + i of v is 1, and to bit i of v; no other bit changes, so a write with all mask bits zero changes nothing, and
bits 31:16 that read zero before read zero after. Completion (exec answers this next state, under conditions on state
and operands alone) is stated of: registerWrite (GLOBAL.CTRL). (R316) -/
def Obligations.MaskedWrite : Prop :=
  ∀ (a : Block) (q : List Instr) (m : Master) (v : Word), linkReady a m = true → quiet (atSlot a m) = true →
    let b := atSlot a m
    ∃ t, exec (.registerWrite m R.GLOBAL_CTRL v 15) ⟨a, q⟩ = .next ⟨t, q⟩ ∧
      regsOnly b t [accReg m, R.GLOBAL_CTRL] ∧
      (∀ i, i < 32 → (getW t R.GLOBAL_CTRL).getLsbD i =
        (if i < 3 ∧ v.getLsbD (16 + i) = true then v.getLsbD i else (getW b R.GLOBAL_CTRL).getLsbD i)) ∧
      (v >>> 16 = 0 → getW t R.GLOBAL_CTRL = getW b R.GLOBAL_CTRL)

/-- A read of a location of BAR0 that no register map assigns returns zero; a write of one, and a write of any word of
BAR0 whose byte enables are not all set, stores nothing. With CTRL.RSVD_ERR at 1 the access sets STATUS.RSVD_ACCESS
and shows master and word address in RSVD_LAST; else it shows nothing. A word of the command window, which stands at
0x40000 in SPI's map and, in the model, behind BAR0 for PCIe's BAR2 (DESIGN CHOICE of log entry 42), takes the word
written and no other byte, and a read of it returns its four bytes. Each access has the master's cycle (R313).
Completion (exec answers this next state, under conditions on state and operands alone) is stated of: reservedRead,
registerWrite (reserved and partial). (14_registers.md, 17_host_links_startup.md) -/
def Obligations.ReservedLocations : Prop :=
  ∀ (x : Block) (q : List Instr) (m : Master) (a be : Nat) (v : Word), linkReady x m = true → quiet (atSlot x m) = true →
    accessStalls x m a = false → a % 4 = 0 →
    let b := atSlot x m
    (0x40000 ≤ a → a < 0x50000 → (∃ t, exec (.registerWrite m a v 15) ⟨x, q⟩ = .next ⟨t, q⟩ ∧
        regsOnly { b with cmd := { b.cmd with window := t.cmd.window } } t [] ∧
        ∀ i, Tbl.get (fun _ => (0 : Byte)) t.cmd.window i = (if a - 0x40000 ≤ i ∧ i < a - 0x40000 + 4 then
          (wordBytes v).getD (i - (a - 0x40000)) 0 else Tbl.get (fun _ => (0 : Byte)) b.cmd.window i)) ∧
      ∃ t, exec (.reservedRead m a) ⟨x, q⟩ = .next ⟨t, q⟩ ∧ t.cmd = b.cmd ∧ lastRead t m = Word.ofNat (bytesNat
        ((List.range 4).map (fun i => Tbl.get (fun _ => (0 : Byte)) b.cmd.window (a - 0x40000 + i))))) ∧
    (a < 0x40000 →
    (regDef a = none → ∃ t, exec (.reservedRead m a) ⟨x, q⟩ = .next ⟨t, q⟩ ∧ lastRead t m = 0 ∧
      (∀ y, y ∉ [accReg m, R.GLOBAL_STATUS, R.GLOBAL_RSVD_LAST] → getW t y = getW b y) ∧
      (flag b F.GLOBAL_CTRL_RSVD_ERR = true → flag t F.GLOBAL_STATUS_RSVD_ACCESS = true ∧
        getF t F.GLOBAL_RSVD_LAST_WADDR = a / 4 ∧ getF t F.GLOBAL_RSVD_LAST_MASTER = masterNo m)) ∧
    ((regDef a = none ∧ be = 15) ∨ (m = .pcie ∧ be < 15) → ∃ t, exec (.registerWrite m a v be) ⟨x, q⟩ = .next ⟨t, q⟩ ∧
      regsOnly b t [accReg m, R.GLOBAL_STATUS, R.GLOBAL_RSVD_LAST] ∧
      (flag b F.GLOBAL_CTRL_RSVD_ERR = true → flag t F.GLOBAL_STATUS_RSVD_ACCESS = true ∧
        getF t F.GLOBAL_RSVD_LAST_WADDR = a / 4 ∧ getF t F.GLOBAL_RSVD_LAST_MASTER = masterNo m) ∧
      (flag b F.GLOBAL_CTRL_RSVD_ERR = false → regsOnly b t [accReg m])))

/-- A read of a latching low word returns it, puts the higher words as they stand into the reading master's shadow,
and tags the shadow with its word address; a read of a higher word whose low word matches the tag returns the shadow;
any other returns the live word and sets STATUS.HI_UNLATCHED. Neither disturbs the other master's shadow. Each read
has the master's cycle (R313). Completion (exec answers this next state, under conditions on state and operands alone)
is stated of: latchingLowRead, highWordRead. (14_registers.md) -/
def Obligations.LatchingReads : Prop :=
  ∀ (x : Block) (q : List Instr) (m : Master) (a : Nat), linkReady x m = true → quiet (atSlot x m) = true → a % 4 = 0 →
    a < 0x40000 → (regDef a).isSome →
    let b := atSlot x m
    (∀ hi rest, latchSet a = hi :: rest → ∃ t, exec (.latchingLowRead m a) ⟨x, q⟩ = .next ⟨t, q⟩ ∧
      getF t (tagF m) = a / 4 ∧
      lastRead t m = Word.ofNat (viewWord (countAccess b m) (readActive b m) 0 a) ∧
      (match m with
        | .pcie => t.hostIf.latchP.head? = some (Word.ofNat (viewWord (countAccess b m) (readActive b m) 1 hi)) ∧
            t.hostIf.latchS = b.hostIf.latchS
        | .spi => t.hostIf.latchS.head? = some (Word.ofNat (viewWord (countAccess b m) (readActive b m) 1 hi)) ∧
            t.hostIf.latchP = b.hostIf.latchP) ∧
      (∀ y, y ∉ [accReg m, R.GLOBAL_SHADOW_STAT] → getW t y = getW b y)) ∧
    (∀ lo, latchSet a = [] → lowOf a = some lo → ∃ t, exec (.highWordRead m a) ⟨x, q⟩ = .next ⟨t, q⟩ ∧
      (getF b (tagF m) = lo / 4 → lastRead t m = ((match m with
        | .pcie => b.hostIf.latchP
        | .spi => b.hostIf.latchS).getD ((a - lo) / 4 - 1) 0) ∧ ∀ y, y ≠ accReg m → getW t y = getW b y) ∧
      (getF b (tagF m) ≠ lo / 4 → lastRead t m = Word.ofNat (viewWord (countAccess b m) (readActive b m) 0 a) ∧
        flag t F.GLOBAL_STATUS_HI_UNLATCHED = true))

/-- While a master's link is not ready, its register writes change nothing at all, and neither do its reads but for
the zero that an SPI read returns (reading of R387, log entry 43). (17_host_links_startup.md) -/
def Obligations.LinkDownAccesses : Prop :=
  ∀ (b : Block) (q : List Instr) (m : Master) (a be : Nat) (v : Word), linkReady b m = false → quiet b = true → m.reaches a = true → be < 16 →
    exec (.registerWrite m a v be) ⟨b, q⟩ = .next ⟨b, q⟩ ∧ exec (.key m v) ⟨b, q⟩ = .next ⟨b, q⟩ ∧
    exec (.reservedRead m a) ⟨b, q⟩ = .next ⟨(if m = .spi then setRead b m 0 else b), q⟩

/-- UPDATE written v takes every update group whose bit is set at one edge, the next f_M edge, for application from
4,000 ns later, over a state that differs from the one before in the access counter alone; a host write of a register
of a unit that is all buffered, and that the unit's own rules let pass, changes the programmed word, sets the UG_PEND
bit of the unit's update group, leaves the word in force, and leaves every strobe but one of this unit whose edge is
still ahead. Each has the master's cycle (R313). Completion (exec answers this next state, under conditions on state
and operands alone) is stated of: update, registerWrite (buffered). (14_registers.md) -/
def Obligations.ShadowStrobes : Prop :=
  ∀ (x : Block) (q : List Instr) (m : Master) (v : Word), linkReady x m = true →
    let b := atSlot x m
    (∃ u, regsOnly b u [accReg m] ∧ exec (.update m v) ⟨x, q⟩ = .next ⟨settleJobs (forEach (bitList v.toNat 16) u
      (fun s g => takeStrobe s g (nextEdge b) (nextEdge b + 4000) (masterNo m))), q⟩) ∧
    (∀ (a : Nat) (d : RegDef), regDef a = some d → d.rw = d.buf → d.buf ≠ 0 → d.key = 0 → d.w1c = 0 → inRegion a = true →
      linkGone b (regionOf (blockUnit a)) = false → quiet b = true →
      ruleMask (countAccess b m) a (getP b a).toNat (mergeMask (getP b a).toNat v.toNat d.rw) d.rw = (countAccess b m, d.rw) →
      ∃ t, exec (.registerWrite m a v 15) ⟨x, q⟩ = .next ⟨t, q⟩ ∧
        getP t a = Word.ofNat (mergeMask (getP b a).toNat v.toNat d.buf) ∧ getW t a = getW b a ∧
        regsOnly { b with strobes := t.strobes } t [accReg m, a, R.GLOBAL_UG_PEND] ∧
        ((∀ y ∈ b.strobes, y.tgt ≠ blockUnit a ∨ y.edge ≤ b.sysTime) → t.strobes = b.strobes) ∧
        flag t ⟨R.GLOBAL_UG_PEND, ugOf b (blockUnit a), ugOf b (blockUnit a)⟩ = true)

/-- TAIL of an enabled ring takes the low half of the word written, of a disabled ring nothing; a configuration that
enables a ring sets its HEAD and TAIL to zero, as does one of the completion ring, whose PHASE then is 1; a write of
CQ_HEAD is stored, and counts from the next cycle on (Table 13-6). A configuration that disables a ring leaves it the
TAIL it had before the cycle. A ring's configuration changes nothing but its three registers, and on enabling it
forgets the header read from the ring. Each has the master's cycle (R313). Completion (exec answers this next state,
under conditions on state and operands alone) is stated of: sqTailWrite, sqCfgWrite, cqCfgWrite, cqHeadWrite.
(13_command_processor.md, 14_registers.md) -/
def Obligations.HostRings : Prop :=
  ∀ (x : Block) (q : List Instr) (m : Master) (r : Nat) (v : Word), linkReady x m = true → r < 4 →
    let b := atSlot x m
    (∃ t, exec (.sqTailWrite m r v) ⟨x, q⟩ = .next ⟨t, q⟩ ∧ regsOnly b t [accReg m, 0x1050 + 0x20 * r] ∧
      getF t (sqF r F.HOSTCMD_SQ0_TAIL_IDX) = (if (getP b (0x1048 + 0x20 * r)).toNat.testBit 0 = true then bits v 15 0
        else getF b (sqF r F.HOSTCMD_SQ0_TAIL_IDX))) ∧
    (∃ t, exec (.sqCfgWrite m r v) ⟨x, q⟩ = .next ⟨t, q⟩ ∧
      (regsOnly b t [accReg m, 0x1048 + 0x20 * r, 0x104C + 0x20 * r, 0x1050 + 0x20 * r] ∨
        flag t (sqF r F.HOSTCMD_SQ0_CFG_EN) = true ∧
        regsOnly (clearPeek b r) t [accReg m, 0x1048 + 0x20 * r, 0x104C + 0x20 * r, 0x1050 + 0x20 * r]) ∧
      ((getP b (0x1048 + 0x20 * r)).toNat.testBit 0 = false → v.getLsbD 0 = true → 6 ≤ bits v 12 8 →
        bits v 12 8 ≤ (if v.getLsbD 1 = true then 14 else 16) →
        flag t (sqF r F.HOSTCMD_SQ0_CFG_EN) = true ∧ getF t (sqF r F.HOSTCMD_SQ0_CFG_LOG2) = bits v 12 8 ∧
        getF t (sqF r F.HOSTCMD_SQ0_HEAD_IDX) = 0 ∧ getF t (sqF r F.HOSTCMD_SQ0_TAIL_IDX) = 0) ∧
      ((getP b (0x1048 + 0x20 * r)).toNat.testBit 0 = true → v.getLsbD 0 = false →
        flag t (sqF r F.HOSTCMD_SQ0_CFG_EN) = false ∧
        getF t (sqF r F.HOSTCMD_SQ0_TAIL_IDX) = (match writtenNow b (0x1050 + 0x20 * r) with
          | some w => bits w 15 0
          | none => getF b (sqF r F.HOSTCMD_SQ0_TAIL_IDX)))) ∧
    ((getP b R.HOSTCMD_CQ_CFG).toNat.testBit 0 = false → v.getLsbD 0 = true → 4 ≤ bits v 12 8 → bits v 12 8 ≤ 12 → b.cmd.held = [] →
      ∃ t, exec (.cqCfgWrite m v) ⟨x, q⟩ = .next ⟨t, q⟩ ∧ flag t F.HOSTCMD_CQ_CFG_EN = true ∧ t.cmd.phase = true ∧
        getF t F.HOSTCMD_CQ_HEAD_IDX = 0 ∧ getF t F.HOSTCMD_CQ_TAIL_IDX = 0) ∧
    (∃ t, exec (.cqHeadWrite m v) ⟨x, q⟩ = .next ⟨t, q⟩ ∧ regsOnly b t [accReg m, R.HOSTCMD_CQ_HEAD] ∧
      getF t F.HOSTCMD_CQ_HEAD_IDX = bits v 15 0 ∧ cqHead t = cqHead b ∧ t.cmd = b.cmd)

/-- A write of IND_ADDR with a legal increment starts a prefetch and with increment 3 leaves IND_ADDR; the arriving
word, which waits for DRAM_RESUME where it lies in DRAM, clears BUSY and stands in IND_DATA, and an error it met is
dealt with; a read of IND_DATA with the word there, or by PCIe of one that first arrives, returns it, advances the
address by INC modulo 2^28 and fetches again; an SPI read while BUSY returns zero, keeps the address and shows
NOT_READY; a write of IND_DATA to a target that cannot be written shows READ_ONLY, and one to the inactive correction
bank of a unit without a pending result stores the bits that the record's word has and fetches again. Each access has
the master's cycle (R313). Completion (exec answers this next state, under conditions on state and operands alone) is
stated of: indAddrWrite, indPrefetchDone, indDataRead, indDataWrite. (12_dram_controller.md, 14_registers.md) -/
def Obligations.IndirectAccess : Prop :=
  ∀ (x : Block) (q : List Instr) (m : Master) (v : Word), linkReady x m = true →
    let b := atSlot x m
    let p := masterNo m
    let busy := flag b (indF p F.GLOBAL_IND_STAT_BUSY)
    (∃ t, exec (.indAddrWrite m v) ⟨x, q⟩ = .next ⟨t, q⟩ ∧
      (bits v 1 0 ≠ 3 → getP t (R.GLOBAL_IND_ADDR + 0xC * p) = v ∧ flag t (indF p F.GLOBAL_IND_STAT_BUSY) = true) ∧
      (bits v 1 0 = 3 → regsOnly b t [accReg m])) ∧
    (awake x = true → flag x (indF p F.GLOBAL_IND_STAT_BUSY) = true → indStalls x p = false →
      exec (.indPrefetchDone m) ⟨x, q⟩ = .next ⟨afterReads (indArrive x p), q⟩ ∧
      flag (indArrive x p) (indF p F.GLOBAL_IND_STAT_BUSY) = false ∧
      (indTgt x p ≠ 4 → getF (indArrive x p) (indF p F.GLOBAL_IND_DATA_DATA) = indWord x p (indTgt x p) (indAdr x p) % 2 ^ 32)) ∧
    (busy = false → accessStalls x m (R.GLOBAL_IND_DATA + 0xC * p) = false → indFault b (indTgt b p) (indAdr b p) = 0 →
      exec (.indDataRead m) ⟨x, q⟩ = .next ⟨afterReads (setRead (indAdvance (countAccess b m) p) m
        (getF b (indF p F.GLOBAL_IND_DATA_DATA))), q⟩) ∧
    (busy = true → m = .pcie → accessStalls x m R.GLOBAL_IND_DATA = false →
      let c := indArrive (countAccess b m) 0
      indFault c (indTgt c 0) (indAdr c 0) = 0 →
      exec (.indDataRead .pcie) ⟨x, q⟩ = .next ⟨afterReads (setRead (indAdvance c 0) .pcie (getF c F.GLOBAL_IND_DATA_DATA)), q⟩) ∧
    (busy = true → m = .spi → quiet b = true → ∃ t, exec (.indDataRead .spi) ⟨x, q⟩ = .next ⟨t, q⟩ ∧
      lastRead t .spi = 0 ∧ getF t (indF 1 F.GLOBAL_IND_STAT_REASON) = 1 ∧ indAdr t 1 = indAdr b 1 ∧
      flag t (indF 1 F.GLOBAL_IND_STAT_BUSY) = true) ∧
    (busy = false → accessStalls x m (R.GLOBAL_IND_DATA + 0xC * p) = false → quiet b = true → indTgt b p = 3 →
      indAdr b p ≤ 0x4FF → ∃ t, exec (.indDataWrite m v) ⟨x, q⟩ = .next ⟨t, q⟩ ∧
        getF t (indF p F.GLOBAL_IND_STAT_REASON) = 2 ∧ flag t F.GLOBAL_STATUS_IND_ERR = true ∧
        t.event = b.event ∧ t.mem = b.mem ∧ t.nvm = b.nvm ∧ t.tables = b.tables) ∧
    (∀ u k o, busy = false → accessStalls x m (R.GLOBAL_IND_DATA + 0xC * p) = false → quiet b = true → indTgt b p = 5 →
      bankPlace (indAdr b p) = some (u, 1 - calBank b u, k, o) → calBank b u < 2 → k < calSlots u →
      calPend b u = none → ∃ t, exec (.indDataWrite m v) ⟨x, q⟩ = .next ⟨t, q⟩ ∧
        t.tables = (putBank b (indAdr b p) (bankMask o) v.toNat).tables ∧ t.mem = b.mem ∧ t.nvm = b.nvm ∧
        flag t (indF p F.GLOBAL_IND_STAT_BUSY) = true)

/-- A write of RT_SEL loads the staging copy with the committed entry of the sink it selects; RT_GO commits the
staging copy to the selected sink below 160 where every source byte is below 192, and else sets RT_REFUSED and changes
no route; RT_CLR clears the counts of the selected sink; SWEV fires software source 184 + k for each bit k written 1,
all at once. Each access has the master's cycle (R313). Completion (exec answers this next state, under conditions on
state and operands alone) is stated of: rtSelWrite, rtGo, rtClr, swev. (R219) -/
def Obligations.RouterSelectors : Prop :=
  ∀ (y : Block) (q : List Instr) (m : Master) (v : Word), linkReady y m = true →
    let b := atSlot y m
    (∃ t, exec (.rtSelWrite m v) ⟨y, q⟩ = .next ⟨t, q⟩ ∧ getF t F.EVENT_RT_SEL_SINK = bits v 7 0 ∧
      getW t R.EVENT_RT_SRC = routeSrc b (bits v 7 0) ∧ getW t R.EVENT_RT_CFG = routeCfg b (bits v 7 0) ∧
      regsOnly b t [accReg m, R.EVENT_RT_SEL, R.EVENT_RT_SRC, R.EVENT_RT_CFG]) ∧
    (∃ t, exec (.rtGo m) ⟨y, q⟩ = .next ⟨t, q⟩ ∧
      (getF b F.EVENT_RT_SEL_SINK < 160 → (∀ i < 4, bits (getW b R.EVENT_RT_SRC) (8 * i + 7) (8 * i) < 192) →
        (∀ x, routeSrc t x = (if x = getF b F.EVENT_RT_SEL_SINK then getW b R.EVENT_RT_SRC else routeSrc b x)) ∧
        (∀ x, routeCfg t x = (if x = getF b F.EVENT_RT_SEL_SINK then getW b R.EVENT_RT_CFG else routeCfg b x)) ∧
        ∀ a, a ≠ accReg m → getW t a = getW b a) ∧
      ((160 ≤ getF b F.EVENT_RT_SEL_SINK ∨ ∃ i < 4, 192 ≤ bits (getW b R.EVENT_RT_SRC) (8 * i + 7) (8 * i)) → flag t F.EVENT_STATUS_RT_REFUSED = true ∧
        regsOnly b t [accReg m, R.EVENT_STATUS])) ∧
    (∃ t, exec (.rtClr m) ⟨y, q⟩ = .next ⟨t, q⟩ ∧ (∀ a, a ≠ accReg m → getW t a = getW b a) ∧
      ∀ x, Tbl.get (fun _ => 0) t.event.counts x =
        (if x = getF b F.EVENT_RT_SEL_SINK then 0 else Tbl.get (fun _ => 0) b.event.counts x)) ∧
    (∃ t, exec (.swev m v) ⟨y, q⟩ = .next ⟨t, q⟩ ∧ (∀ a, a ≠ accReg m → getW t a = getW b a) ∧
      t.fires = b.fires ++ (bitList v.toNat 8).map (fun k => ⟨184 + k, 0, b.sysTime⟩))

/-- A write of DESC_SEL shows the state and length of the segment it names, one of PTE_SEL whether the virtual page it
names has a page. A read of WIN_DATA asks DRAM for the word at WIN_OFS and returns it, zero where the segment cannot
be read there or the word is uncorrectable; a write of it stores the word at WIN_OFS where the segment takes writes,
or shows why it does not; either goes through the TLB, advances WIN_OFS where WIN_AINC is 1, and has the errors it met
dealt with. A read with no faulty word returns the segment's four bytes. Neither runs while DRAM_RESUME holds DRAM.
Each access has the master's cycle (R313). Completion (exec answers this next state, under conditions on state and
operands alone) is stated of: descSelWrite, pteSelWrite, winDataAccess. (05_segment_memory.md, 12_dram_controller.md)
-/
def Obligations.SnapshotsAndWindow : Prop :=
  ∀ (x : Block) (q : List Instr) (m : Master) (v w : Word), linkReady x m = true →
    let b := atSlot x m
    (∃ t, exec (.descSelWrite m v) ⟨x, q⟩ = .next ⟨t, q⟩ ∧ getF t F.MMU_DESC_SEL_ID = bits v 15 0 ∧
      getF t F.MMU_DESC_STATE_STATE = (seg b (bits v 15 0)).st % 16 ∧
      getF t F.MMU_DESC_LEN_FRAMES = (seg b (bits v 15 0)).len % 2 ^ 32 ∧ t.mem = b.mem ∧ t.cmd = b.cmd) ∧
    (∃ t, exec (.pteSelWrite m v) ⟨x, q⟩ = .next ⟨t, q⟩ ∧ getF t F.MMU_PTE_SEL_VPN = bits v 21 0 ∧
      flag t F.MMU_PTE_LO_V = (pte b (bits v 21 0)).isSome ∧ t.mem = b.mem ∧ t.cmd = b.cmd) ∧
    (accessStalls x m R.MMU_WIN_DATA = false →
      (∃ u, regsOnly b u [accReg m] ∧
        let c := winRequest u 6 (linkSub m) 0
        exec (.winDataAccess m none) ⟨x, q⟩ = .next ⟨afterReads (winStep (winWalk (setRead c m (winRead c)))), q⟩) ∧
      (∃ u, regsOnly b u [accReg m] ∧
        exec (.winDataAccess m (some w)) ⟨x, q⟩ = .next ⟨afterReads (winStep (winWrite (winWalk u) (linkSub m) w)), q⟩) ∧
      (quiet b = true → b.mem.errs = [] → winReads b = true → ∃ t, exec (.winDataAccess m none) ⟨x, q⟩ = .next ⟨t, q⟩ ∧
        lastRead t m = Word.ofNat (bytesNat (segBytes b (seg b (getF b F.MMU_WIN_SEG_ID)) (winOfs b) 4)) ∧
        t.mem.dram = b.mem.dram ∧ t.mem.segs = b.mem.segs))

/-- With the master's lock open, TMR_INJ.GO on a triplicated bit that stands alike in its copies inverts it in the
copy named, PATROL.TEST.GO on an object of a class counts one event of that class (at object 0 where the class has
none), and a cap written is in force when the queue of requests is visited; with the lock closed none of them happens;
the lock is closed after each. Each access has the master's cycle (R313). Completion (exec answers this next state,
under conditions on state and operands alone) is stated of: tmrInjGo, patrolTestGo, pkgCapWrite. (14_registers.md,
16_modes_power_faults.md) -/
def Obligations.KeyedGoBits : Prop :=
  ∀ (y : Block) (q : List Instr) (m : Master) (v : Word), linkReady y m = true →
    let b := atSlot y m
    (flag b (keyF m) = true → bits v 5 4 < 3 → b.flips = [] → flag b F.GLOBAL_TMR_SEL_SHADOW = false →
      (∃ d, regDef (4 * getF b F.GLOBAL_TMR_SEL_WADDR) = some d ∧ d.tmr.testBit (bits v 12 8) = true) →
      ∃ t, exec (.tmrInjGo m v) ⟨y, q⟩ = .next ⟨t, q⟩ ∧ flag t (keyF m) = false ∧
        t.flips = [⟨4 * getF b F.GLOBAL_TMR_SEL_WADDR, false, bits v 5 4, bits v 12 8⟩]) ∧
    (flag b (keyF m) = false → ∃ t, exec (.tmrInjGo m v) ⟨y, q⟩ = .next ⟨t, q⟩ ∧
      regsOnly b t [accReg m, R.GLOBAL_LOCKED_WR, R.GLOBAL_STATUS] ∧ ∀ f ∈ t.flips, f ∈ b.flips) ∧
    (flag b (keyF m) = true → bits v 27 24 < 9 → patrolObject (bits v 27 24) (bits v 21 0) = true →
      ∃ u, regsOnly b u [accReg m, R.GLOBAL_KEYSTAT, R.PATROL_TEST] ∧ flag u (keyF m) = false ∧
        exec (.patrolTestGo m v) ⟨y, q⟩ = .next ⟨settleJobs (patrolEvent u (bits v 27 24)
          (if bits v 27 24 = 4 ∨ bits v 27 24 = 7 ∨ bits v 27 24 = 8 then 0 else bits v 21 0)), q⟩) ∧
    (flag b (keyF m) = false → ∃ t, exec (.patrolTestGo m v) ⟨y, q⟩ = .next ⟨t, q⟩ ∧
      regsOnly b t [accReg m, R.GLOBAL_LOCKED_WR, R.GLOBAL_STATUS]) ∧
    (flag b (keyF m) = true → ∃ u, regsOnly b u [accReg m, R.GLOBAL_KEYSTAT, R.POWER_PKG_CAP] ∧
      getF u F.POWER_PKG_CAP_CAP = bits v 15 0 ∧ flag u (keyF m) = false ∧
      exec (.pkgCapWrite m v) ⟨y, q⟩ = .next ⟨capWritten u, q⟩) ∧
    (flag b (keyF m) = false → ∃ t, exec (.pkgCapWrite m v) ⟨y, q⟩ = .next ⟨t, q⟩ ∧
      getF t F.POWER_PKG_CAP_CAP = getF b F.POWER_PKG_CAP_CAP)

/-- With the lock open RTC_SET notes the present second; at a later second the count takes the load register; an alarm
equal to the count sets STATUS.ALARM; writing 0x0000A5C3 to WDOG_KICK restarts an enabled watchdog with its full
period outside BOOT and SLEEP, and any other value changes nothing. Each access has the master's cycle (R313).
Completion (exec answers this next state, under conditions on state and operands alone) is stated of: rtcSet, rtcLoad,
rtcAlarm, wdogKick. (16_modes_power_faults.md) -/
def Obligations.ClockOfTheBoard : Prop :=
  ∀ (y : Block) (q : List Instr) (m : Master) (v : Word),
    (linkReady y m = true →
      let b := atSlot y m
      (flag b (keyF m) = true → ∃ t, exec (.rtcSet m v) ⟨y, q⟩ = .next ⟨t, q⟩ ∧ t.aon.setIn = rtcSec b + 1 ∧
        t.aon.load = b.aon.load ∧ t.aon.frac = b.aon.frac ∧ t.aon.wdogAt = b.aon.wdogAt) ∧
      (∃ u, regsOnly b u [accReg m] ∧ exec (.wdogKick m 0xA5C3) ⟨y, q⟩ = .next ⟨{ u with aon := { b.aon with wdogAt :=
        (if flag b F.AON_WDOG_CFG_EN = true ∧ modeOf b ≠ 0 ∧ modeOf b ≠ 5 then
          b.now + max 1 (getF b F.AON_WDOG_CFG_PERIOD) * 1000000 + 1 else 0) } }, q⟩) ∧
      (v ≠ 0xA5C3 → ∃ t, exec (.wdogKick m v) ⟨y, q⟩ = .next ⟨t, q⟩ ∧ regsOnly b t [accReg m])) ∧
    (y.aon.setIn ≠ 0 → rtcSec y + 1 ≠ y.aon.setIn → y.aon.load < 2 ^ 48 → ∃ t, exec .rtcLoad ⟨y, q⟩ = .next ⟨t, q⟩ ∧
      rtcSec t = y.aon.load ∧ t.aon = { y.aon with setIn := 0 } ∧
      regsOnly { y with aon := t.aon } t [R.AON_RTC_LO, R.AON_RTC_HI]) ∧
    (y.aon.on = true → flag y F.AON_CTRL_ALARM_EN = true → rtcSec y = alarmSec y →
      exec .rtcAlarm ⟨y, q⟩ = .next ⟨raise y F.AON_STATUS_ALARM, q⟩)

/-- FORCE of an engine that does not run sets its FOVR, and of one that runs forces its trigger at the first of its
sample ticks at or after the next f_M edge, if that tick is not past and has no force yet; SEND of a mailbox to
destination 0 to 16 makes TX_BUSY read 1; UP_RPTR takes the offset written; the oldest write on a die link leaves it,
and one of a word other than a unit's CTRL acts at its unit with exactly its bits; SPI_STATUS returns the status byte
and clears ERR. Each register access has the master's cycle (R313). Completion (exec answers this next state, under
conditions on state and operands alone) is stated of: force, gdatSend, upRptrWrite, writeReachesAdie, spiStatus.
(09_acquisition.md, 10_events_gyden.md, 14_registers.md, 17_host_links_startup.md) -/
def Obligations.OtherStrobes : Prop :=
  ∀ (y : Block) (q : List Instr) (m : Master) (v : Word) (i : Nat), i < 4 →
    (linkReady y m = true →
      let b := atSlot y m
      (∃ u, regsOnly b u [accReg m] ∧ exec (.force m i) ⟨y, q⟩ = .next ⟨forceEvent u i (nextEdge b) 0, q⟩ ∧
        (capRuns b i = false → forceEvent u i (nextEdge b) 0 = raise u (tF i F.TRACK_STATUS_FOVR)) ∧
        (let k := (nextEdge b + capPeriod b i - 1) / capPeriod b i
         capRuns b i = true → (cap b i).tick ≤ k → (∀ f ∈ (cap b i).forces, f.1 ≠ k) →
          forceEvent u i (nextEdge b) 0 = setCap u i { cap b i with forces := (cap b i).forces ++ [(k, 0)] })) ∧
      (bits v 4 0 ≤ 16 → ∃ t, exec (.gdatSend m v) ⟨y, q⟩ = .next ⟨t, q⟩ ∧ flag t F.GYDEN_GDAT_STAT_TX_BUSY = true ∧
        getF t F.GYDEN_GDAT_CTRL_DEST = bits v 4 0 ∧ regsOnly b t [accReg m, R.GYDEN_GDAT_CTRL, R.GYDEN_GDAT_STAT]) ∧
      (∃ t, exec (.upRptrWrite m i v) ⟨y, q⟩ = .next ⟨t, q⟩ ∧ getW t (0x12000 + 0x100 * i + R.TRACK_UP_RPTR) = v ∧
        regsOnly b t [accReg m, 0x12000 + 0x100 * i + R.TRACK_UP_RPTR])) ∧
    (∀ w, y.linkQ.find? (fun x => x.rgn == i) = some w → ∃ t, exec (.writeReachesAdie i) ⟨y, q⟩ = .next ⟨t, q⟩ ∧
      t.linkQ = y.linkQ.erase w ∧ (w.adr % 0x100 ≠ 0 → twoFold w.adr = true →
        getW t w.adr = Word.ofNat (mergeMask (getW y w.adr).toNat w.val w.mask) ∧ ∀ a, a ≠ w.adr → getW t a = getW y a)) ∧
    (∃ t, exec .spiStatus ⟨y, q⟩ = .next ⟨t, q⟩ ∧ t.hostIf.readS = Word.ofNat (spiByte y) ∧ t.boot.spiErr = false ∧
      t = { y with hostIf := { y.hostIf with readS := t.hostIf.readS }, boot := { y.boot with spiErr := false } })

/-- A MODE_SET while a change is in progress completes BUSY, before any other check, unless it asks for SAFE. Outside
BOOT, one to the present mode completes OK; one to SAFE takes the package to SAFE with cause 2; one that Table 16-1
does not allow completes STATE; a SYSTEM change from a node that is not the bus's master, or to SLEEP, completes
BAD_PARAM; an allowed one that no party refuses sends PREPARE to every party, makes CHANGING read 1 with the target,
and waits; one refused with every party heard is abandoned with the lowest reason in RESULT and the party in DETAIL,
and with a party still unheard it waits. Completion (exec answers this next state, under conditions on state and
operands alone) is stated of: modeSet. (16_modes_power_faults.md) -/
def Obligations.ModeSetEffect : Prop :=
  ∀ (b : Block) (q : List Instr) (h : Hdr) (p : List Word),
    let t := takePacket b h Op.modeSet
    let tgt := pb p 1 2 0
    let sys := decide (pb p 1 8 8 = 1)
    let s := startChange t tgt sys (pw p 2)
    let out := fun (r : CmdRes) => Host.Outcome.next (φ := Fault) (ρ := Refusal) (State.mk (finish h Op.modeSet p [] r) q)
    (h.wf p.length = true → packetReady b h = true → packetHeld b h Op.modeSet p = true → modeBusy b h Op.modeSet p = true →
      exec (.modeSet h p) ⟨b, q⟩ = .next ⟨complete t ⟨h, Op.modeSet, Sts.busy, 0, 0, 0⟩, q⟩) ∧
    (takes b h 0x08 p (· == 3) [0x107, 0xFFFF] = true → modeOf b ≠ 0 → 1 ≤ tgt → tgt ≤ 5 →
      (sys = true → (flag b F.GYDEN_CONFIG_EN = false ∨ flag b F.GYDEN_CONFIG_MASTER = false ∨ tgt = 5) →
        exec (.modeSet h p) ⟨b, q⟩ = out (.done t Sts.badParam 0 1 0)) ∧
      ((sys = true → flag b F.GYDEN_CONFIG_EN = true ∧ flag b F.GYDEN_CONFIG_MASTER = true ∧ tgt ≠ 5) →
        (tgt = modeOf b → exec (.modeSet h p) ⟨b, q⟩ = out (.done t Sts.ok 0 1 0)) ∧
        (tgt ≠ modeOf b → tgt = 4 → exec (.modeSet h p) ⟨b, q⟩ = out (.done (packageSafe t 2) Sts.ok 0 1 0)) ∧
        (tgt ≠ modeOf b → tgt ≠ 4 → modePair (modeOf b) tgt = false →
          exec (.modeSet h p) ⟨b, q⟩ = out (.done t Sts.state 0 1 0)) ∧
        (modePair (modeOf b) tgt = true → tgt ≠ modeOf b → tgt ≠ 4 → refusals t tgt = [] →
          exec (.modeSet h p) ⟨b, q⟩ = out (.wait s [] 0 0) ∧
          flag s F.GLOBAL_MODE_CHANGING = true ∧ getF s F.GLOBAL_MODE_TGT = tgt) ∧
        (modePair (modeOf b) tgt = true → tgt ≠ modeOf b → tgt ≠ 4 → ∀ r, leastRefusal (refusals t tgt) = some r →
          ∀ c, s.sys.change = some c →
          (allReported c = true → exec (.modeSet h p) ⟨b, q⟩ = out (.done (abandonMode s r.1 r.2 Sts.state) Sts.state r.2 1 r.1)) ∧
          (allReported c = false → exec (.modeSet h p) ⟨b, q⟩ = out (.wait s [] 0 0)))))

/-- Abandoning a change with no MODE_SET waiting ends it, returns CHANGING to 0, records in MODE_LAST that it was
abandoned, its target, the reason and the party, and takes back what GYDEN was to send of it; nothing else changes.
(16_modes_power_faults.md) -/
def Obligations.AbandonedChange : Prop :=
  ∀ (s : Block) (c : ModeChange) (reason detail status : Nat), s.sys.change = some c → reason < 8 → detail < 65536 →
    c.target < 8 → (∀ j ∈ s.cmd.jobs, j.op ≠ Op.modeSet) →
    (abandonMode s reason detail status).sys.change = none ∧
    flag (abandonMode s reason detail status) F.GLOBAL_MODE_CHANGING = false ∧
    flag (abandonMode s reason detail status) F.POWER_MODE_LAST_ABANDONED = true ∧
    getF (abandonMode s reason detail status) F.POWER_MODE_LAST_TARGET = c.target ∧
    getF (abandonMode s reason detail status) F.POWER_MODE_LAST_REASON = reason ∧
    getF (abandonMode s reason detail status) F.POWER_MODE_LAST_DETAIL = detail ∧
    regsOnly { s with sys := { s.sys with change := none },
                      gyden := { s.gyden with commit := 0, commitN := 0, commitE := none, prep := false } }
      (abandonMode s reason detail status) [R.GLOBAL_MODE, R.POWER_MODE_LAST]

/-- With every party of a change of this package heard, MODE_COMMIT abandons it where one refused and else commits it
at the next f_M edge; of a SYSTEM change, the master makes COMMIT be sent. A deadline passed with a party unheard and
none refusing abandons it with reason 1 and the lowest such party. MODE_APPLY gives the mode to the parties named that
have come to their application, each once, reading MIXED meanwhile; with the last of them the change ends in the
target mode with CHANGING 0. Each is followed by a look at the commands that wait. Completion (exec answers this next
state, under conditions on state and operands alone) is stated of: modeCommit, modeDeadline, modeApply.
(16_modes_power_faults.md) -/
def Obligations.ModeChangeHappenings : Prop :=
  ∀ (b : Block) (q : List Instr) (c : ModeChange), b.sys.change = some c →
    (c.edge = none → allReported c = true → ∀ r, c.refusal = some r →
      exec .modeCommit ⟨b, q⟩ = .next ⟨settleJobs (abandonMode b r.1 r.2 Sts.state), q⟩) ∧
    (c.edge = none → allReported c = true → c.refusal = none → c.system = false →
      exec .modeCommit ⟨b, q⟩ = .next ⟨settleJobs (commitAt b (nextEdge b)), q⟩ ∧
      (refusals b c.target = [] → ∃ c', (commitAt b (nextEdge b)).sys.change = some c' ∧ c'.edge = some (nextEdge b) ∧
        c'.target = c.target ∧ c'.applied = [])) ∧
    (c.edge = none → allReported c = true → c.refusal = none → c.system = true → flag b F.GYDEN_CONFIG_MASTER = true →
      b.gyden.commit = 0 → ∃ t, exec .modeCommit ⟨b, q⟩ = .next ⟨t, q⟩ ∧ t.gyden.commit = c.target + 1 ∧
        t.gyden.commitN = 16 ∧ t = { b with gyden := t.gyden }) ∧
    (c.edge = none → allReported c = false → c.refusal = none → c.due ≤ b.now →
      exec .modeDeadline ⟨b, q⟩ = .next ⟨settleJobs (abandonMode b 1
        (let miss := (c.parties.filter (fun p => !c.ready.contains p)).foldl min 0xFFFF
         if miss = 0x300 then 0xFFFF else miss) Sts.state), q⟩) ∧
    (∀ p, partyOk p = true → exec (.modeApply p) ⟨b, q⟩ = .next ⟨settleJobs (forEach (partyCodes p) b applyParty), q⟩) ∧
    (∀ e p, c.edge = some e → canApply b c e p = true → ∃ c', (applyParty b p).sys.change = some c' ∧
      c'.applied = p :: c.applied ∧ c'.last = b.sysTime ∧ getF (applyParty b p) F.GLOBAL_MODE_CUR = 15 ∧
      (p < 64 → (unit (applyParty b p) p).mode = c.target) ∧ (p = 0x300 → (applyParty b p).sys.cdie = c.target) ∧
      (applyParty b p).cmd = b.cmd) ∧
    (∀ e p, c.edge = some e → canApply b c e p = false → applyParty b p = b) ∧
    (∀ e, c.edge = some e → c.target < 5 → c.parties.all (fun x => c.applied.contains x) = true → (∀ j ∈ b.cmd.jobs, j.op ≠ Op.modeSet) →
      (settleChange b).sys.change = none ∧ getF (settleChange b) F.GLOBAL_MODE_CUR = c.target ∧
      flag (settleChange b) F.GLOBAL_MODE_CHANGING = false ∧ (settleChange b).cmd = b.cmd)

/-- An accepted low level of SAFE_N shows in PINS.SAFE, is logged, lets a frequency change of the DRAM in progress
complete, and takes the package to SAFE with cause 3; a low level already accepted changes nothing; a high level
clears PINS.SAFE alone; a node in UP accepts another node's announcement with cause 12 where SAFE_ACCEPT is 1; where
it is 0 the announcement abandons a SYSTEM change not yet committed, with reason 6, and no other; a node that is not
in UP ignores it. A package in SAFE takes only the new cause, and in BOOT and SLEEP a SAFE changes nothing. Completion
(exec answers this next state, under conditions on state and operands alone) is stated of: safeNAssert, safeNRelease,
safeAnnouncement. (16_modes_power_faults.md) -/
def Obligations.SafePin : Prop :=
  ∀ (b : Block) (q : List Instr) (n : Nat),
    (flag b F.GLOBAL_PINS_SAFE = true → exec .safeNAssert ⟨b, q⟩ = .next ⟨b, q⟩) ∧
    (flag b F.GLOBAL_PINS_SAFE = false → exec .safeNAssert ⟨b, q⟩ = .next ⟨settleJobs (packageSafe (finishFreq
      (patrolLog (raise { b with boot := { b.boot with safeLow := true } } F.GLOBAL_PINS_SAFE) 0x25 0 0 0)) 3), q⟩) ∧
    (exec .safeNRelease ⟨b, q⟩ = .next ⟨setF { b with boot := { b.boot with safeLow := false } } F.GLOBAL_PINS_SAFE 0, q⟩) ∧
    (n < 16 → flag b F.GYDEN_CONFIG_EN = true → getF b F.GYDEN_STATE_LINK = 2 →
      (flag b F.POWER_CTRL_SAFE_ACCEPT = true → exec (.safeAnnouncement n) ⟨b, q⟩ = .next ⟨settleJobs (packageSafe b 12), q⟩) ∧
      (flag b F.POWER_CTRL_SAFE_ACCEPT = false → (∀ c, b.sys.change = some c → c.system = false ∨ c.edge ≠ none) →
        exec (.safeAnnouncement n) ⟨b, q⟩ = .next ⟨settleJobs b, q⟩) ∧
      (flag b F.POWER_CTRL_SAFE_ACCEPT = false → ∀ c, b.sys.change = some c → c.system = true → c.edge = none →
        exec (.safeAnnouncement n) ⟨b, q⟩ = .next ⟨settleJobs (abandonMode b 6 0xFFFF Sts.aborted), q⟩)) ∧
    (n < 16 → (flag b F.GYDEN_CONFIG_EN = false ∨ getF b F.GYDEN_STATE_LINK ≠ 2) →
      exec (.safeAnnouncement n) ⟨b, q⟩ = .next ⟨b, q⟩) ∧
    (∀ (s : Block) (cause : Nat), modeOf s = 4 → packageSafe s cause = setF s F.POWER_SAFE_CAUSE_CAUSE cause) ∧
    (∀ (s : Block) (cause : Nat), (modeOf s = 0 ∨ modeOf s = 5) → packageSafe s cause = s)

/-- A resume of the package in SAFE whose condition n of R359 is the first unmet completes STATE with DETAIL n and
resumes nothing; else a resume that names a region in SAFE whose link has not been healthy for 10 ms completes STATE
naming the region and resumes nothing. Else the regions named leave SAFE, a resume of the package takes it to STANDBY,
every unit that SAFE sent to FAULT in a region now free is to ramp to REST where the package is not in SAFE, and the
command waits until they stand there. After each, waiting commands are looked at. Completion (exec answers this next
state, under conditions on state and operands alone) is stated of: resumeFromSafe. (16_modes_power_faults.md) -/
def Obligations.ResumeFromSafe : Prop :=
  ∀ (b : Block) (q : List Instr) (h : Hdr) (p : List Word), takes b h 0xF2 p (· == 2) [0x10F] = true → modeOf b ≠ 0 →
    let t := takePacket b h Op.resumeFromSafe
    let pkg := pb p 1 8 8 = 1 ∧ modeOf b = 4
    let named := (bitList (pb p 1 3 0) 4).filter (fun i => (getF b F.PATROL_RGN_STATE_SAFE).testBit i)
    let r := forEach named t leaveRegion
    let u := if pkg then leavePackage r else r
    let free := (List.range 64).filter (fun x => !(getF u F.PATROL_RGN_STATE_SAFE).testBit (regionOf x) &&
      (decide pkg || named.contains (regionOf x)))
    (pkg → resumeUnmet b ≠ 0 → exec (.resumeFromSafe h p) ⟨b, q⟩ =
      .next ⟨settleJobs (finish h Op.resumeFromSafe p [] (.done t Sts.state (resumeUnmet b) 1 0)), q⟩) ∧
    ((pkg → resumeUnmet b = 0) → ∀ i, named.find? (fun i => !rgnHealthy b i) = some i → exec (.resumeFromSafe h p) ⟨b, q⟩ =
      .next ⟨settleJobs (finish h Op.resumeFromSafe p [] (.done t Sts.state (0x200 + i) 1 0)), q⟩) ∧
    ((pkg → resumeUnmet b = 0) → (∀ i ∈ named, rgnHealthy b i = true) →
      exec (.resumeFromSafe h p) ⟨b, q⟩ = .next ⟨settleJobs (finish h Op.resumeFromSafe p []
        (.wait (if modeOf u = 4 then u else resumeUnits u free) [] 0 0)), q⟩ ∧
      (pkg → modeOf u = 1 ∧ u.sys.cdie = 1) ∧ (∀ i ∈ named, (getF u F.PATROL_RGN_STATE_SAFE).testBit i = false))

/-- A gap of 2 µs on a healthy link loses it: the region's LINK_LOST bit is set, writes on their way are dropped, the
loss is logged and the region enters SAFE; on a link already lost nothing changes. A shorter gap and a retransmission
are PATROL events of class 3 that count as recovered; a valid frame on a lost link ends the loss and starts its 10 ms;
a plain frame on a healthy link changes nothing. Completion (exec answers this next state, under conditions on state
and operands alone) is stated of: linkLost, linkGapEnd, linkFrame. (01_architecture.md, 16_modes_power_faults.md) -/
def Obligations.DieLinks : Prop :=
  ∀ (b : Block) (q : List Instr) (i : Nat), i < 4 →
    (flag b (lostF i) = true → exec (.linkLost i) ⟨b, q⟩ = .next ⟨b, q⟩ ∧ exec (.linkGapEnd i) ⟨b, q⟩ = .next ⟨b, q⟩ ∧
      ∀ r, ∃ t, exec (.linkFrame i r) ⟨b, q⟩ = .next ⟨t, q⟩ ∧ flag t (lostF i) = false ∧
        Tbl.get (fun _ => 0) t.sys.rgnUp i = b.now ∧ regsOnly { b with sys := t.sys, hostIf := t.hostIf } t [R.PATROL_RGN_STATE]) ∧
    (flag b (lostF i) = false → exec (.linkLost i) ⟨b, q⟩ = .next ⟨settleJobs (loseLink b i), q⟩ ∧
      exec (.linkGapEnd i) ⟨b, q⟩ = .next ⟨settleJobs (linkUpNow (recovered (patrolEvent b 3 i)) i), q⟩ ∧
      exec (.linkFrame i true) ⟨b, q⟩ = .next ⟨settleJobs (recovered (patrolEvent b 3 i)), q⟩ ∧
      exec (.linkFrame i false) ⟨b, q⟩ = .next ⟨b, q⟩)

/-- An event on an object with no open window, of a class other than memory words whose threshold is above 1, opens a
window of the class's WIN with count 1 and counts a transient; an event that brings an open window's count to its
threshold closes the window and is a lasting fault; one below only raises the count. WINDOW_CLOSE closes a window that
has reached WIN and keeps every other. Completion (exec answers this next state, under conditions on state and
operands alone) is stated of: patrolWindowClose. (16_modes_power_faults.md) -/
def Obligations.PatrolCounting : Prop :=
  ∀ (s : Block) (c obj : Nat), 1 ≤ c → c < 9 →
    ((∀ w ∈ s.sys.windows, ¬(w.cls = c ∧ w.obj = obj)) → 2 ≤ getF s (clsF c F.PATROL_CLS0_CFG_THRESH) →
      (patrolEvent s c obj).sys.windows = s.sys.windows ++ [⟨c, obj, s.now,
        min 60000 (max 1 (getF s (clsF c F.PATROL_CLS0_CFG_WIN))) * 1000000,
        getF s (clsF c F.PATROL_CLS0_CFG_THRESH), 1⟩] ∧
      getF (patrolEvent s c obj) F.PATROL_TRANSIENTS_COUNT =
        (getF s F.PATROL_TRANSIENTS_COUNT + 1) % 2 ^ (F.PATROL_TRANSIENTS_COUNT.hi + 1 - F.PATROL_TRANSIENTS_COUNT.lo)) ∧
    (∀ w, s.sys.windows = [w] → w.cls = c → w.obj = obj → s.now < w.opened + w.win →
      (w.thresh ≤ w.count + 1 → ∃ u, u.sys.windows = [] ∧ patrolEvent s c obj = patrolLasting u c obj (w.count + 1)) ∧
      (w.count + 1 < w.thresh → (patrolEvent s c obj).sys.windows = [{ w with count := w.count + 1 }])) ∧
    (∀ q, ∃ t, exec (.patrolWindowClose c obj) ⟨s, q⟩ = .next ⟨t, q⟩ ∧
      t.sys = { s.sys with windows := s.sys.windows.filter (fun w =>
        !(w.cls == c && w.obj == obj && decide (w.opened + w.win ≤ s.now))) } ∧ t.units = s.units ∧ t.cmd = s.cmd)

/-- With TMR_SCRUB.EN a scrub pass rewrites every copy that differs, counting each, and counts the pass, and with EN
at 0 nothing is repaired; a pass over the control stores of a running microengine that meets no uncorrectable word
counts and reports the words corrected in each and the pass; a supply that falls below its threshold is held low for
its time, counted, VAON flagged, and reported, and one that is low already changes nothing; PAC withdraws every
request whose timeout has ended, and does nothing where there is none. Completion (exec answers this next state, under
conditions on state and operands alone) is stated of: tmrScrubPass, cstoreScrub, supplyBelowThreshold, pacTimeout.
(13_command_processor.md, 14_registers.md, 16_modes_power_faults.md) -/
def Obligations.UpkeepHappenings : Prop :=
  ∀ (b : Block) (q : List Instr),
    (awake b = true → flag b F.GLOBAL_TMR_SCRUB_EN = true → exec .tmrScrubPass ⟨b, q⟩ = .next ⟨settleJobs
      (incF { forEach (badCopies b) b scrubCopy with flips := [] } F.GLOBAL_TMR_SCRUB_PASSES), q⟩) ∧
    (flag b F.GLOBAL_TMR_SCRUB_EN = false → exec .tmrScrubPass ⟨b, q⟩ = .next ⟨b, q⟩) ∧
    (∀ n k, awake b = true → getF b F.HOSTCMD_STATE_UE_STATE = 2 → exec (.cstoreScrub ⟨n, k, none⟩) ⟨b, q⟩ =
      .next ⟨settleJobs (incF (storeCorrected (storeCorrected b F.HOSTCMD_UCS_CE_COUNT (min n 16384))
        F.HOSTCMD_NCS_CE_COUNT (min k 2048)) F.HOSTCMD_MS_SCRUB_PASSES), q⟩) ∧
    (∀ i k, i < 10 → supplyLow b i = false → let u := incF { b with boot :=
        { b.boot with lowTill := Tbl.set (fun _ => 0) b.boot.lowTill i (b.now + k) } } F.POWER_DIPS_COUNT
      exec (.supplyBelowThreshold ⟨i, k⟩) ⟨b, q⟩ =
        .next ⟨settleJobs (patrolEvent (if i = 3 then raise u F.AON_STATUS_VAON_LOW else u) 5 i), q⟩) ∧
    (∀ i k, i < 10 → supplyLow b i = true → exec (.supplyBelowThreshold ⟨i, k⟩) ⟨b, q⟩ = .next ⟨b, q⟩) ∧
    ((∀ r ∈ b.sys.queue, b.now < r.due) → exec .pacTimeout ⟨b, q⟩ = .next ⟨b, q⟩) ∧
    ((∃ r ∈ b.sys.queue, r.due ≤ b.now) → exec .pacTimeout ⟨b, q⟩ = .next ⟨settleJobs (pacVisit
      (forEach (b.sys.queue.filter (fun r => decide (r.due ≤ b.now))) b expire)), q⟩)

/-- PAC grants a request that fits on every ledger it counts on, denies one that can never fit, that comes under
NOWAIT or to a full queue, and queues any other. A PAC_RESERVE of a free handle for 1 to 2,200 mW, or of a unit for a
range it may be set to, that is granted completes OK with the handle or unit granted; one denied completes
POWER_DENIED with its hierarchy index, the handle free; one queued waits; of a handle in use it completes BUSY, of no
amount or one beyond 2,200 mW BAD_PARAM; of a unit whose grant covers the range it completes OK at once. PAC_RELEASE
withdraws a reservation still queued, frees a granted handle, and a unit's grant beyond its floor that nothing needs,
with their charges, lets PAC look at its queue and the waiting commands be looked at, and completes OK; of a unit that
needs its grant it completes STATE, of a handle or unit with none OK. Completion (exec answers this next state, under
conditions on state and operands alone) is stated of: pacReserve, pacRelease. (16_modes_power_faults.md) -/
def Obligations.PowerAdmission : Prop :=
  ∀ (b : Block) (q : List Instr) (h : Hdr) (p : List Word), modeOf b ≠ 0 →
    let x := pb p 1 6 0
    let k := pb p 1 18 16
    (takes b h 0x78 p (· == 4) [0x370F7F, 0x7FFFF, 0xFFFF] = true →
      let t := takePacket b h Op.pacReserve
      let l := pb p 2 18 16
      let amt := pb p 2 15 0
      let r : PacReq := ⟨if pb p 1 20 20 = 1 then 0 else 1, ledgerIdx l, [(l, amt)], .handle k, h.ring, t.cmd.cur,
        reserveDue t p⟩
      let u := setHandle t k ⟨1, decide (pb p 1 20 20 = 1), l, amt⟩
      let ru := unitRequest t h x (pb p 1 11 8) x (reserveDue t p)
      let out := fun (r : CmdRes) => Host.Outcome.next (φ := Fault) (ρ := Refusal) (State.mk (finish h Op.pacReserve p [] r) q)
      (x = 0x7F → (amt = 0 ∨ 2200 < amt) → exec (.pacReserve h p) ⟨b, q⟩ = out (.done t Sts.badParam 0 1 0)) ∧
      (x = 0x7F → 1 ≤ amt → amt ≤ 2200 →
        ((handle b k).st ≠ 0 → exec (.pacReserve h p) ⟨b, q⟩ = out (.done t Sts.busy 0 1 0)) ∧
        ((handle b k).st = 0 → pacAnswer u r (pb p 1 21 21 == 1) = .grant →
          exec (.pacReserve h p) ⟨b, q⟩ = out (.done (pacGrant u r) Sts.ok 0 1 0)) ∧
        ((handle b k).st = 0 → pacAnswer u r (pb p 1 21 21 == 1) = .deny → ∃ y, (handle y k).st = 0 ∧
          exec (.pacReserve h p) ⟨b, q⟩ = out (.done y Sts.powerDenied (ledgerIdx l) 1 0)) ∧
        ((handle b k).st = 0 → pacAnswer u r (pb p 1 21 21 == 1) = .queue →
          exec (.pacReserve h p) ⟨b, q⟩ = out (.wait (setQueue (raise u F.POWER_STATUS_QUEUED) (b.sys.queue ++ [r])) [0] 0 0))) ∧
      (x < 64 →
        (grantNeed t x (pb p 1 11 8) = 0 →
          exec (.pacReserve h p) ⟨b, q⟩ = out (.done (setB t (uF x F.P_STATE_GRANT) true) Sts.ok 0 1 0)) ∧
        (grantNeed t x (pb p 1 11 8) ≠ 0 → pacAnswer t ru (pb p 1 21 21 == 1) = .grant →
          exec (.pacReserve h p) ⟨b, q⟩ = out (.done (pacGrant t ru) Sts.ok 0 1 0)) ∧
        (grantNeed t x (pb p 1 11 8) ≠ 0 → pacAnswer t ru (pb p 1 21 21 == 1) = .deny → ∃ y, y.units = b.units ∧
          exec (.pacReserve h p) ⟨b, q⟩ = out (.done y Sts.powerDenied x 1 0)) ∧
        (grantNeed t x (pb p 1 11 8) ≠ 0 → pacAnswer t ru (pb p 1 21 21 == 1) = .queue →
          exec (.pacReserve h p) ⟨b, q⟩ =
            out (.wait (setQueue (raise t F.POWER_STATUS_QUEUED) (b.sys.queue ++ [ru])) [0] 0 0)))) ∧
    (takes b h 0x79 p (· == 2) [0x7007F] = true →
      let t := takePacket b h 0x79
      let out := fun (s : Block) (st : Nat) =>
        Host.Outcome.next (φ := Fault) (ρ := Refusal) (State.mk (finish h 0x79 p [] (.done s st 0 1 0)) q)
      (∀ w r, queuedReserve t w = some r → ((x = 0x7F ∧ w = .handle k) ∨ (x < 64 ∧ w = .unit x)) →
        exec (.pacRelease h p) ⟨b, q⟩ = out (settleJobs (withdraw t r)) Sts.ok) ∧
      (x = 0x7F → queuedReserve t (.handle k) = none →
        ((handle b k).st = 2 → exec (.pacRelease h p) ⟨b, q⟩ =
          out (settleJobs (pacRelease (setHandle t k {}) (handle b k).ledger (handle b k).amount)) Sts.ok) ∧
        ((handle b k).st ≠ 2 → exec (.pacRelease h p) ⟨b, q⟩ = out t Sts.ok)) ∧
      (x < 64 → queuedReserve t (.unit x) = none →
        ((unit b x).grant = 0 → exec (.pacRelease h p) ⟨b, q⟩ = out t Sts.ok) ∧
        ((unit b x).grant ≠ 0 → grantNeeded t x = true → exec (.pacRelease h p) ⟨b, q⟩ = out t Sts.state) ∧
        ((unit b x).grant ≠ 0 → grantNeeded t x = false → exec (.pacRelease h p) ⟨b, q⟩ = out (settleJobs (pacRelease
          (setB (setUnit t x { unit b x with grant := 0 }) (uF x F.P_STATE_GRANT) false) (regionOf x) (unit b x).grant))
          Sts.ok))) ∧
    (∀ (s : Block) (r : PacReq) (nowait : Bool), pacAnswer s r nowait = (if tooTight s r.amts = [] then .grant
      else if neverFits s r.amts ≠ [] ∨ 32 ≤ s.sys.queue.length ∨ nowait = true then .deny else .queue))

/-- With DRAM served, a SEG_CREATE of a legal WAVEFORM or CAPTURE segment under a FREE id, mapped on first use,
reserves consecutive virtual pages and leaves the segment WRITABLE or CAPTURE with its format and length, RESULT
giving the first page; one with a bad format completes BAD_PARAM and one of a used id STATE. SEG_SEAL takes a WRITABLE
segment to SEALED and a STREAM_EMPTY member to filled unless a descriptor is open on it. SEG_FREE of a FREE id or a
ring member completes STATE, of a pinned segment ACTIVE_SEGMENT. SEG_OPEN of a SEALED unpinned segment without MAP
makes it WRITABLE, of a pinned one completes ACTIVE_SEGMENT. None of the refusals changes segment memory. Completion
(exec answers this next state, under conditions on state and operands alone) is stated of: segCreate, segSeal,
segFree, segOpen. (05_segment_memory.md, 13_command_processor.md) -/
def Obligations.SegmentStates : Prop :=
  ∀ (b : Block) (q : List Instr) (h : Hdr) (p : List Word), modeOf b ≠ 0 → quiet b = true →
    let id := pb p 1 15 0
    let t := fun op => takePacket b h op
    let out := fun (op : Nat) (r : CmdRes) => Host.Outcome.next (φ := Fault) (ρ := Refusal) (State.mk (finish h op p [] r) q)
    (takes b h 0x10 p (· == 4) [0x3FFFF, 0xF7F03, 0xFFFFFFFF] = true → dramBad (t 0x10) = false →
      let bad := createBad (pb p 1 16 16) (pb p 2 1 0) (pb p 2 14 8) (pb p 2 19 16) (pw p 3)
      (bad = true → exec (.segCreate h p) ⟨b, q⟩ = out 0x10 (.done (t 0x10) Sts.badParam 0 1 0)) ∧
      (bad = false → (seg b id).st ≠ 0 → exec (.segCreate h p) ⟨b, q⟩ = out 0x10 (.done (t 0x10) Sts.state 0 1 0)) ∧
      (bad = false → (seg b id).st = 0 → id ∉ b.mem.freeing → pb p 1 17 17 = 0 →
        let g : Seg := { st := if pb p 1 16 16 = 1 then 6 else 1, sfmt := if pb p 1 16 16 = 1 then 2 else pb p 2 1 0,
                         na := pb p 2 14 8, nl := pb p 2 19 16, len := pw p 3 }
        (∀ v, vFit b (pagesOf (segSize g)) = some v → exec (.segCreate h p) ⟨b, q⟩ =
          out 0x10 (.done (setSeg (noteUndo (t 0x10) [.desc id (seg b id)]) id
            { g with vpn := v, pages := pagesOf (segSize g) }) Sts.ok 0 1 v)) ∧
        (vFit b (pagesOf (segSize g)) = none →
          exec (.segCreate h p) ⟨b, q⟩ = out 0x10 (.done (t 0x10) Sts.noMemory 0 1 0)))) ∧
    (takes b h 0x12 p (· == 2) [0xFFFF] = true → dramBad (t 0x12) = false → liftOpen b id [1, 2, 3] = false →
      ((seg b id).st = 1 → exec (.segSeal h p) ⟨b, q⟩ =
        out 0x12 (.done (setSeg (t 0x12) id { seg b id with st := 2 }) Sts.ok 0 1 0)) ∧
      ((seg b id).st = 4 → exec (.segSeal h p) ⟨b, q⟩ =
        out 0x12 (.done (setSeg (t 0x12) id { seg b id with st := 5 }) Sts.ok 0 1 0)) ∧
      ((seg b id).st ≠ 1 → (seg b id).st ≠ 4 → exec (.segSeal h p) ⟨b, q⟩ = out 0x12 (.done (t 0x12) Sts.state 0 1 0))) ∧
    (takes b h 0x11 p (· == 2) [0xFFFF] = true → dramBad (t 0x11) = false →
      ((seg b id).st = 0 ∨ (seg b id).member = true →
        exec (.segFree h p) ⟨b, q⟩ = out 0x11 (.done (t 0x11) Sts.state 0 1 0)) ∧
      ((seg b id).st = 2 → (seg b id).member = false → (seg b id).pin ≠ 0 →
        exec (.segFree h p) ⟨b, q⟩ = out 0x11 (.done (t 0x11) Sts.activeSegment 0 1 0)) ∧
      ((seg b id).st = 2 → (seg b id).member = false → (seg b id).pin = 0 → mappedVpns b id = [] → b.mem.move = none →
        (∀ c < 8, (lift b c).st = 0) → ∃ u, exec (.segFree h p) ⟨b, q⟩ = out 0x11 (.done u Sts.ok 0 1 0) ∧
          (b.sys.retire = [] → compactJob (t 0x11) = none → (seg u id).st = 0))) ∧
    (takes b h 0x13 p (· == 4) [0x1FFFF, 0xFFFFFFFF, 0xFFFFFFFF] = true → dramBad (t 0x13) = false → pb p 1 16 16 = 0 →
      ((seg b id).st = 2 → (seg b id).pin ≠ 0 →
        exec (.segOpen h p) ⟨b, q⟩ = out 0x13 (.done (t 0x13) Sts.activeSegment 0 1 0)) ∧
      ((seg b id).st = 2 → (seg b id).pin = 0 → pw p 2 + pw p 3 ≤ (seg b id).pages → b.mem.move = none →
        promised (t 0x13) ≤ freePages (t 0x13) →
        exec (.segOpen h p) ⟨b, q⟩ = out 0x13 (.done (setSeg (noteUndo (t 0x13) [.desc id (seg b id)]) id
          { seg b id with st := 1 }) Sts.ok 0 1 0)))

/-- STREAM_RING_CREATE of a FREE id over distinct, fully mapped WRITABLE segments of one format makes each a
STREAM_EMPTY member with its index, in ring order, and the id a ring, and completes OK; a member that may not join,
one named twice, or an id in use completes STATE; a packet that lists fewer than three members, or whose words do not
hold its members, BAD_PARAM. SEG_COMPACT asks PAC for 0.10 W on the CDIE ledger in the background class: denied, it
completes POWER_DENIED, queued it waits, granted it runs over the pages mapped of the segments it names. A page move
whose copy time has passed completes, an error it met is dealt with, and the engine goes on with the next; before that
time, with none in course, or while DRAM serves no request nothing changes; a deferred retirement is tried again where
one waits; an uncorrectable loop-cache error of a sequencer sends its fetches of the segment to DRAM and sets LC_ERR.
Completion (exec answers this next state, under conditions on state and operands alone) is stated of:
streamRingCreate, segCompact, pageMove, retireDeferred, loopCacheUe. (05_segment_memory.md, 13_command_processor.md)
-/
def Obligations.RingsAndMoves : Prop :=
  ∀ (b : Block) (q : List Instr) (h : Hdr) (p d : List Word),
    (takes b h 0x14 p (fun n => decide (2 ≤ n)) [0x1FFFFFF] = true → modeOf b ≠ 0 → dramBad b = false →
      let t := takePacket b h 0x14
      let id := pb p 1 15 0
      (ringWords t h p d = none → exec (.streamRingCreate h p d) ⟨b, q⟩ = .next ⟨finish h 0x14 p d (.done t Sts.badParam 0 1 0), q⟩) ∧
      ∀ l, ringWords t h p d = some l →
        let ids := (ringIds l).take (pb p 1 23 16 + 1)
        (((∃ m ∈ ids, memberBad b (seg b (ids.headD 0)) m = true) ∨ ¬ids.Nodup ∨ (seg b id).st ≠ 0 ∨ id ∈ b.mem.freeing) →
          exec (.streamRingCreate h p d) ⟨b, q⟩ = .next ⟨finish h 0x14 p d (.done t Sts.state 0 1 0), q⟩) ∧
        ((seg b id).st = 0 → id ∉ b.mem.freeing → ids.Nodup → (∀ m ∈ ids, memberBad b (seg b (ids.headD 0)) m = false) →
          ∃ u, exec (.streamRingCreate h p d) ⟨b, q⟩ = .next ⟨finish h 0x14 p d (.done u Sts.ok 0 1 0), q⟩ ∧
            (seg u id).st = 7 ∧ (ringOf u id).members = ids ∧
            (∀ k m, ids[k]? = some m → seg u m = { seg b m with st := 4, member := true, ring := id, idx := k }) ∧
            u = { t with mem := { t.mem with segs := u.mem.segs, rings := u.mem.rings } })) ∧
    (takes b h 0x16 p (· == 2) [0x1FFFF] = true → modeOf b ≠ 0 → dramBad b = false →
      (∀ j ∈ b.cmd.jobs, ¬(j.op = Op.segCompact ∧ j.h = h)) →
      let t := takePacket b h 0x16
      let ids := if pb p 1 16 16 = 1 then b.mem.segs.map (fun x => x.1) else [pb p 1 15 0]
      let todo := 0 :: ids.flatMap (mappedVpns b)
      let r : PacReq := ⟨0, 110, [(6, 100)], .cmd Op.segCompact, h.ring, t.cmd.cur, b.now + toCmd t⟩
      (pacAnswer t r false = .deny → ∃ u, exec (.segCompact h p) ⟨b, q⟩ =
        .next ⟨finish h 0x16 p [] (.done u Sts.powerDenied 0 1 0), q⟩ ∧ u.mem = b.mem) ∧
      (pacAnswer t r false = .queue → exec (.segCompact h p) ⟨b, q⟩ = .next ⟨finish h 0x16 p []
        (.wait (setQueue (raise t F.POWER_STATUS_QUEUED) (b.sys.queue ++ [r])) todo r.due 0), q⟩) ∧
      (pacAnswer t r false = .grant → (∀ x ∈ b.sys.queue, x.id ≤ b.cmd.taken) →
        let f := finish h 0x16 p [] (.wait (pacGrant t r) todo r.due 0)
        ∃ j ∈ f.cmd.jobs, j.op = Op.segCompact ∧ j.h = h ∧ j.todo = todo ∧ exec (.segCompact h p) ⟨b, q⟩ =
          .next ⟨resumeMoves (putJob f j { j with steps := 0, todo := 1 :: todo.tail }), q⟩)) ∧
    (∀ m, b.mem.move = some m → dramBad b = false → dramStalled b = false → m.began + copyTime b ≤ b.now →
      exec .pageMove ⟨b, q⟩ =
        .next ⟨afterReads (if ueMet (finishMove b) then finishMove b else resumeMoves (finishMove b)), q⟩) ∧
    (quiet b = true → (dramBad b = true ∨ dramStalled b = true ∨ b.mem.move = none ∨
      ∃ m, b.mem.move = some m ∧ b.now < m.began + copyTime b) → exec .pageMove ⟨b, q⟩ = .next ⟨b, q⟩) ∧
    (b.sys.retire ≠ [] → exec .retireDeferred ⟨b, q⟩ = .next ⟨resumeMoves b, q⟩) ∧
    (b.sys.retire = [] → exec .retireDeferred ⟨b, q⟩ = .next ⟨b, q⟩) ∧
    (∀ n id, n < 16 → id < 65536 → id ∈ (seqr b n).pins → cachedFor b n id = true →
      exec (.loopCacheUe ⟨n, id⟩) ⟨b, q⟩ = .next ⟨syncSeq (raise (setSeq b n
        { seqr b n with lcOff := (seqr b n).lcOff ++ [id] }) F.MMU_STATUS_LC_ERR) n, q⟩) ∧
    (∀ n id, n < 16 → id < 65536 → (id ∉ (seqr b n).pins ∨ cachedFor b n id = false) →
      exec (.loopCacheUe ⟨n, id⟩) ⟨b, q⟩ = .next ⟨b, q⟩)

/-- A move whose source page holds an uncorrectable word leaves the entry and every byte as they were. When a move
that retires nothing finishes over a page without errors, the virtual page's entry names the destination with MOVE
clear, every byte of the destination page reads as the source page's did, every page table entry but this one is as
before, and CMP_MOVED counts one page. (05_segment_memory.md) -/
def Obligations.FinishedMove : Prop :=
  ∀ (s : Block) (m : PageMove) (e : Pte), s.mem.move = some m → pte s m.vpn = some e → m.retire = false →
    e.ppn ∉ s.sys.retire → m.dst ≠ e.ppn → quiet s = true →
    ((∃ w, (w, 2) ∈ s.mem.errs ∧ w / 1024 = e.ppn) → flag s F.DRAMC_CTRL_ECC_EN = true → dramRuns s = true →
      pte (finishMove s) m.vpn = some e ∧ (finishMove s).mem.dram = s.mem.dram) ∧
    ((∀ x ∈ s.mem.errs, x.1 / 1024 ≠ e.ppn) →
    pte (finishMove s) m.vpn = some { e with ppn := m.dst, move := false } ∧
    (∀ v, v ≠ m.vpn → pte (finishMove s) v = pte s v) ∧
    (∀ o, o < 8192 → Tbl.wf (fun _ => (0 : Byte)) s.mem.dram = true →
      Tbl.get (fun _ => (0 : Byte)) (finishMove s).mem.dram (m.dst * 8192 + o) =
        Tbl.get (fun _ => (0 : Byte)) s.mem.dram (e.ppn * 8192 + o)) ∧
    (finishMove s).mem.move = none ∧ (finishMove s).mem.segs = s.mem.segs ∧ (finishMove s).units = s.units ∧
    getF (finishMove s) F.MMU_CMP_MOVED_PAGES =
      (getF s F.MMU_CMP_MOVED_PAGES + 1) % 2 ^ (F.MMU_CMP_MOVED_PAGES.hi + 1 - F.MMU_CMP_MOVED_PAGES.lo))

/-- LIFT_SUBMIT to an idle channel gives it the list's address and waits; to a busy one it completes BUSY. RESUME of a
channel stopped at a hole waits and copies on; DROP of one frees the channel and completes OK with the descriptors
done in STEPS; either to an idle channel completes STATE and to one at work BUSY; both at once, or a packet of a
window ring, BAD_PARAM. A channel between descriptors takes its next: without PCIe it ends ABORTED, with DRAM frozen
DRAM_FROZEN, misfit fields BAD_PARAM, a FREE or ring target ACTIVE_SEGMENT, a range beyond the target BAD_PARAM; a
target that takes writes is copied from the descriptor's position, with WAIT a filled or playing ring member is waited
for, and any other ends it ACTIVE_SEGMENT. A channel that is not between descriptors takes none. A descriptor whose
copy time has passed is written back OK, seals its target with SEAL, and is followed by the next, or with LAST the
channel is idle and its command completes with the bytes in RESULT; a waiting descriptor whose member is STREAM_EMPTY
is copied. Completion (exec answers this next state, under conditions on state and operands alone) is stated of:
liftSubmit, liftDescriptor, liftDescriptorEnd, liftWaitRelease. (05_segment_memory.md) -/
def Obligations.LiftEngine : Prop :=
  ∀ (b : Block) (q : List Instr) (h : Hdr) (p : List Word) (c : Nat) (desc data : List Word), c < 8 →
    (takes b h 0x15 p (· == 4) [0x307, 0xFFFFFFFF, 0xFFFFFFFF] = true → modeOf b ≠ 0 → dramBad b = false →
      pb p 1 2 0 = c → (∀ j ∈ b.cmd.jobs, ¬(j.op = Op.liftSubmit ∧ j.h = h)) →
      let t := takePacket b h 0x15
      let ends := fun r => exec (.liftSubmit h p) ⟨b, q⟩ = .next ⟨finish h 0x15 p [] r, q⟩
      ((inWindow b h.ring = true ∨ pb p 1 9 8 = 3) → ends (.done t Sts.badParam 0 1 0)) ∧
      (inWindow b h.ring = false →
        (pb p 1 9 8 = 0 → (lift b c).st = 0 → ends (.wait
          (setLift t c { lift b c with st := 1, addr := pw64 p 2, desc := [], data := [], pos := 0, done := 0, bytes := 0 })
          [c, 0] 0 0)) ∧
        (pb p 1 9 8 = 0 → (lift b c).st ≠ 0 → ends (.done t Sts.busy 0 1 0)) ∧
        ((pb p 1 9 8 = 1 ∨ pb p 1 9 8 = 2) → (lift b c).st = 0 → ends (.done t Sts.state 0 1 0)) ∧
        ((pb p 1 9 8 = 1 ∨ pb p 1 9 8 = 2) → (lift b c).st ≠ 0 → (lift b c).st ≠ 3 → ends (.done t Sts.busy 0 1 0)) ∧
        (pb p 1 9 8 = 2 → (lift b c).st = 3 → ends (.done (setLift t c { lift b c with st := 0, desc := [], data := [] })
          Sts.ok 0 (lift b c).done 0)) ∧
        (pb p 1 9 8 = 1 → (lift b c).st = 3 →
          let f := finish h 0x15 p [] (.wait (setLift t c { lift b c with st := 1 }) [c, 1] 0 0)
          ∃ j ∈ f.cmd.jobs, j.h = h ∧ j.todo = [c, 1] ∧
            exec (.liftSubmit h p) ⟨b, q⟩ = .next ⟨liftCopy (putJob f j { j with todo := [c, 0] }) c, q⟩))) ∧
    (((lift b c).st ≠ 1 ∨ (lift b c).desc ≠ [] ∨ dramStalled b = true) →
      exec (.liftDescriptor c desc data) ⟨b, q⟩ = .next ⟨b, q⟩) ∧
    ((lift b c).st = 1 → (lift b c).desc = [] → dramStalled b = false →
      let x : LiftCh := { lift b c with desc := (desc ++ List.replicate 8 0).take 8, pos := 0 }
      let y : LiftCh := { x with seg := ldSeg x, data := data.take (ldLen x / 4) }
      let g := seg b (ldSeg y)
      let u := setLift b c y
      let next := fun v => exec (.liftDescriptor c desc data) ⟨b, q⟩ = .next ⟨v, q⟩
      (b.boot.pcieUp = false → next (liftEnd u c Sts.aborted true)) ∧
      (b.boot.pcieUp = true → dramBad b = true → next (liftEnd u c Sts.dramFrozen false)) ∧
      (b.boot.pcieUp = true → dramBad b = false →
        (ldBad y = true → next (liftEnd u c Sts.badParam false)) ∧
        (ldBad y = false → (g.st = 0 ∨ g.st = 7) → next (liftEnd u c Sts.activeSegment false)) ∧
        (ldBad y = false → g.st ≠ 0 → g.st ≠ 7 →
          (segSize g < ldOfs y + ldLen y → next (liftEnd u c Sts.badParam false)) ∧
          (ldOfs y + ldLen y ≤ segSize g →
            ((g.st = 1 ∨ g.st = 4) → next (liftCopy u c)) ∧
            ((g.st = 3 ∨ g.st = 5) → g.member = true → ldWait y = true → next (setLift u c { y with st := 2 })) ∧
            (g.st ≠ 1 → g.st ≠ 4 → (ldWait y = false ∨ g.member = false ∨ g.st ≠ 3 ∧ g.st ≠ 5) →
              next (liftEnd u c Sts.activeSegment false)))))) ∧
    (let x := lift b c
     let s := liftBack b x Sts.ok
     let u := if ldSeal x then sealSeg s (ldSeg x) else s
     let y : LiftCh := { x with desc := [], data := [], pos := 0, done := x.done + 1, lstat := Sts.ok }
     x.st = 1 → x.desc ≠ [] → ldLen x ≤ x.pos → dramStalled b = false → x.began + liftTime b x.len ≤ b.now →
      (ldLast x = false → exec (.liftDescriptorEnd c) ⟨b, q⟩ =
        .next ⟨setLift u c { y with addr := ldWord x 6 + ldWord x 7 * 2 ^ 32 }, q⟩) ∧
      (ldLast x = true → exec (.liftDescriptorEnd c) ⟨b, q⟩ =
        .next ⟨liftJobEnd (setLift u c { y with st := 0 }) c Sts.ok (x.bytes % 2 ^ 32), q⟩)) ∧
    ((lift b c).st = 2 → (seg b (ldSeg (lift b c))).st = 4 → dramStalled b = false →
      exec (.liftWaitRelease c) ⟨b, q⟩ = .next ⟨liftCopy b c, q⟩)

/-- A legal GROUP_DEFINE of an idle sequencer's group defines exactly that group; one of a sequencer that is not IDLE
completes STATE. An inline STEPS_WRITE outside every window in use writes exactly its steps and returns the index
after the last. SEQ_ARM of a RUNNING sequencer completes STATE; one of an idle sequencer with a sound program of up to
20 units pins the segments of its reachable steps, leaves it ARMED with its frame counter at 0, and no other sequencer
is changed. SEQ_START in RUN or CALIBRATE of ARMED sequencers takes all of them to RUNNING with frame 0 at the first
frame of each grid at or after e + 5,000 ns, and waits; with one not ARMED it completes STATE. SEQ_STOP of a RUNNING
sequencer takes the stop and waits, of one IDLE or ARMING completes STATE, of one STOPPED with DISARM takes it to
IDLE. SEQ_JUMP of a RUNNING sequencer sets the latch that the step listens to, RESULT 1, or is ignored with its flag,
RESULT 0; one whose edge lies in a frame not yet entered waits for it; else it completes STATE. Completion (exec
answers this next state, under conditions on state and operands alone) is stated of: groupDefine, stepsWrite, seqArm,
seqStart, seqStop, seqJump. (06_slalom_sequencers.md, 13_command_processor.md) -/
def Obligations.SequencerCommands : Prop :=
  ∀ (b : Block) (q : List Instr) (h : Hdr) (p d : List Word), modeOf b ≠ 0 → quiet b = true →
    let n := pb p 1 3 0
    let st := getF b (qF n F.SEQ_STATE_SSTATE)
    let t := fun op => takePacket b h op
    let out := fun (op : Nat) (d : List Word) (r : CmdRes) =>
      Host.Outcome.next (φ := Fault) (ρ := Refusal) (State.mk (finish h op p d r) q)
    (takes b h 0x20 p (· == 6) [0x10F, 0x1FFFF, 0xFFFFFFFF, 0xFFFFFFFF, 0xFF] = true →
      let g : Group := { defined := true, lane := decide (pb p 1 8 8 = 1), div := pb p 2 16 0, mask := pw64 p 3,
                         lcmask := pb p 5 7 0 }
      1 ≤ g.div → g.div ≤ (if g.lane = true then 65536 else 4096) → (g.lane = true → g.mask = 0) →
      (g.mask ≠ 0 ∨ g.lcmask ≠ 0) →
      (st ≠ 0 → exec (.groupDefine h p) ⟨b, q⟩ = out 0x20 [] (.done (t 0x20) Sts.state 0 1 0)) ∧
      (st = 0 → (group b n).defined = false → group b n = {} → (∀ u ∈ groupMembers g, groupOf (t 0x20) u = none) →
        twoRates (t 0x20) n g = false → (∀ u ∈ groupMembers g, calNamed (t 0x20) u = false) →
        ∃ u, exec (.groupDefine h p) ⟨b, q⟩ = out 0x20 [] (.done u Sts.ok 0 1 0) ∧ group u n = g ∧
          (∀ k, k ≠ n → group u k = group b k) ∧ u.mem = b.mem ∧ u.seqs = b.seqs)) ∧
    (takes b h 0x21 p (fun k => decide (5 ≤ k)) [0x10FFFFF, 0x1FFFFF] = true → dramBad (t 0x21) = false →
      pb p 1 24 24 = 0 → 1 ≤ pb p 2 20 0 → pb p 1 19 0 + pb p 2 20 0 ≤ 1048576 → p.length = 2 + 4 * pb p 2 20 0 →
      (∀ k < 16, getF b (qF k F.SEQ_STATE_SSTATE) ≠ 0 →
        windowMeets b k (pb p 1 19 0) (pb p 1 19 0 + pb p 2 20 0 - 1) = false) → (∀ i < pb p 2 20 0, stBad (stepOfData (p.drop 2) i) = false) →
      ∃ u, exec (.stepsWrite h p d) ⟨b, q⟩ =
          out 0x21 d (.done u Sts.ok 0 (pb p 2 20 0) (pb p 1 19 0 + pb p 2 20 0)) ∧
        (∀ i < pb p 2 20 0, stepAt u (pb p 1 19 0 + i) = stepOfData (p.drop 2) i) ∧
        (∀ i, i < pb p 1 19 0 ∨ pb p 1 19 0 + pb p 2 20 0 ≤ i → stepAt u i = stepAt b i) ∧
        u.mem.dram = b.mem.dram ∧ u.mem.segs = b.mem.segs ∧ u.units = b.units ∧ u.seqs = b.seqs ∧ u.cmd = (t 0x21).cmd) ∧
    (takes b h 0x22 p (· == 2) [0xF] = true →
      ((1 ≤ st ∧ st ≤ 3) → exec (.seqArm h p) ⟨b, q⟩ = out 0x22 [] (.done (t 0x22) Sts.state 0 1 0)) ∧
      (st = 0 → dramBad (t 0x22) = false → stepsBusy (t 0x22) n = false → (seqr b n).admitted = false → b.mem.errs = [] →
        let x := disarm (t 0x22) n
        let lo := getF x (qF n F.SEQ_WBASE_STEP)
        let hi := getF x (qF n F.SEQ_WLIMIT_STEP)
        let start := getF x (qF n F.SEQ_START_STEP)
        let segs := (armIds x n).flatMap (fun i => (segsOf x i).map (fun g => ((seg x i).st == 7, g)))
        (lo ≤ start → start ≤ hi → ((group x n).mask ≠ 0 ∨ (group x n).lcmask ≠ 0) →
          (∀ u ∈ members x n, calNamed x u = false) →
          (∀ i ∈ reachable x n, ∀ j ∈ stepLinks (stepAt x i), lo ≤ j ∧ j ≤ hi) →
          (∀ y ∈ segs, formatBad x n y.2 = false ∧ pinBad x y.1 y.2 = false) → stepEmpty x start = false →
          popCount (group x n).mask 64 ≤ 20 →
          ∃ u, exec (.seqArm h p) ⟨b, q⟩ = out 0x22 [] (.done u Sts.ok 0 1 0) ∧ getF u (qF n F.SEQ_STATE_SSTATE) = 2 ∧
            (seqr u n).pins = segs.map (fun y => y.2) ∧ getF u (qF n F.SEQ_FRAME_LO_FRAME) = 0 ∧
            getF u (qF n F.SEQ_PASS_COUNT) = 0 ∧ ∀ k, k ≠ n → seqr u k = seqr b k))) ∧
    (takes b h 0x23 p (· == 2) [0xFFFF] = true → (modeOf b = 2 ∨ modeOf b = 3) → pb p 1 15 0 ≠ 0 →
      let l := bitList (pb p 1 15 0) 16
      ((∃ k ∈ l, getF b (qF k F.SEQ_STATE_SSTATE) ≠ 2) →
        exec (.seqStart h p) ⟨b, q⟩ = out 0x23 [] (.done (t 0x23) Sts.state 0 1 0)) ∧
      ((∀ k ∈ l, getF b (qF k F.SEQ_STATE_SSTATE) = 2) → ∃ u r,
        exec (.seqStart h p) ⟨b, q⟩ = out 0x23 [] (.wait u [nextEdge (t 0x23)] 0 r) ∧
        (∀ k ∈ l, getF u (qF k F.SEQ_STATE_SSTATE) = 3 ∧
          (seqr u k).startAt = some (ceilTo (nextEdge (t 0x23) + 5000) (groupT (group b k)))) ∧
        (∀ k, k ∉ l → seqr u k = seqr b k) ∧ r = (seqr u (l.headD 0)).t0 % 2 ^ 32)) ∧
    (takes b h 0x24 p (· == 2) [0x130F] = true → pb p 1 9 8 ≠ 3 →
      (st = 3 → exec (.seqStop h p) ⟨b, q⟩ = out 0x24 []
        (.wait (stopEvent (t 0x24) n (nextEdge (t 0x24)) (pb p 1 9 8) 1 0 (decide (pb p 1 12 12 = 1))) [] 0 0)) ∧
      (st < 2 → exec (.seqStop h p) ⟨b, q⟩ = out 0x24 [] (.done (t 0x24) Sts.state 0 1 0)) ∧
      (st = 4 → pb p 1 12 12 = 1 → ∃ u, exec (.seqStop h p) ⟨b, q⟩ = out 0x24 [] (.done u Sts.ok 0 1 0) ∧
        getF u (qF n F.SEQ_STATE_SSTATE) = 0 ∧ (seqr u n).pins = [])) ∧
    (takes b h 0x25 p (· == 2) [0x30F] = true →
      (st ≠ 3 → exec (.seqJump h p) ⟨b, q⟩ = out 0x25 [] (.done (t 0x25) Sts.state 0 1 0)) ∧
      (st = 3 → inLaterFrame (t 0x25) n (nextEdge (t 0x25)) = true → (seqr b n).played = true →
        exec (.seqJump h p) ⟨b, q⟩ = out 0x25 [] (.wait (keepEvent (t 0x25) n
          (.jump (pb p 1 9 8) (nextEdge (t 0x25)) true 0)) [nextEdge (t 0x25)] 0 0)) ∧
      (st = 3 → inLaterFrame (t 0x25) n (nextEdge (t 0x25)) = false → (seqr b n).latches = [] → ∃ u r, exec (.seqJump h p) ⟨b, q⟩ = out 0x25 [] (.done u Sts.ok 0 1 r) ∧
        (stJen (stepAt b (curStep b n)) = true → stJin (stepAt b (curStep b n)) = pb p 1 9 8 → r = 1 ∧
          ∃ l, (seqr u n).latches = [(pb p 1 9 8, l)] ∧ l.owner = curStep b n ∧ l.edge = nextEdge (t 0x25)) ∧
        (¬(stJen (stepAt b (curStep b n)) = true ∧ stJin (stepAt b (curStep b n)) = pb p 1 9 8) → r = 0 ∧
          seqr u n = seqr b n ∧ flag u (qF n F.SEQ_STATUS_JUMP_IGNORED) = true)))

/-- At the boundary of frame 0 the start step is entered with frame count 0 and pass count 0. At the decision frame
the rings of the candidate successors are read, those found empty noted, and the first granule of each segment that
may follow is read. One frame later the lowest latch set before prevails: its input's latch alone is taken, the jump
is counted and its target decides the successor; with none set the pass goes on undecided by jumps. At the end of a
decided pass a loop that is not done plays another pass from that frame, the last pass of a step with END ends the
sequence, and any other goes on with its natural successor; a pass with a jump taken goes on with the jump's target. A
granule jump acts at its frame and at no other. Errors met in DRAM are dealt with, and commands that wait are looked
at after a pass end and a granule jump. Completion (exec answers this next state, under conditions on state and
operands alone) is stated of: frame0, ringRead, jumpDecision, passEnd, granuleJump. (05_segment_memory.md,
06_slalom_sequencers.md) -/
def Obligations.SequencerPasses : Prop :=
  ∀ (b : Block) (q : List Instr) (n : Nat), n < 16 →
    let x := seqr b n
    let w := stepAt b (getF b (qF n F.SEQ_CUR_STEP))
    (∀ a, x.startAt = some a → getF b (qF n F.SEQ_STATE_SSTATE) = 3 → x.played = false → a ≤ b.sysTime → stopHere x = false →
      let u := enterStep (setSeq b n { x with startAt := none, played := true, t0 := a, frame := 0 }) n
        (getF b (qF n F.SEQ_START_STEP)) 0 0 255
      exec (.frame0 n) ⟨b, q⟩ = .next ⟨afterReads u, q⟩ ∧ (seqr u n).played = true ∧ (seqr u n).t0 = a ∧
        (seqr u n).frame = 0 ∧ (seqr u n).entry = 0 ∧ getF u (qF n F.SEQ_CUR_STEP) = getF b (qF n F.SEQ_START_STEP) ∧
        getF u (qF n F.SEQ_PASS_COUNT) = 0) ∧
    ((∀ a, x.startAt = some a → b.sysTime < a) → exec (.frame0 n) ⟨b, q⟩ = .next ⟨afterReads b, q⟩) ∧
    (seqDue b n = true → x.mode = 1 →
      (x.readDone = false → x.frame = decisionFrame x →
        let u := holdFirst (setSeq b n { x with readDone := true, empties := (candidates b n).filter (stepEmpty b) }) n
          (candidates b n)
        exec (.ringRead n) ⟨b, q⟩ = .next ⟨afterReads u, q⟩ ∧ (seqr u n).readDone = true ∧
        (∀ i ∈ (seqr u n).empties, stepEmpty b i = true) ∧
        (stLoop w ≠ 0 → stEnd w = false → stepEmpty b (stNext w) = true → stNext w ∈ (seqr u n).empties) ∧
        (∀ l ∈ x.latches, stepEmpty b (stJtgt (stepAt b l.2.owner)) = true →
          stJtgt (stepAt b l.2.owner) ∈ (seqr u n).empties) ∧ (∀ k, k ≠ n → seqr u k = seqr b k) ∧
        u.units = b.units ∧ u.cmd = b.cmd) ∧
      (x.readDone = true → x.decided = false → x.cut = none → x.frame = decisionFrame x + 1 → passStop x = false →
        (∀ l ∈ x.latches, x.frame ≤ l.2.frame) → exec (.jumpDecision n) ⟨b, q⟩ = .next ⟨setSeq b n
          { x with decided := true, upol := getF b (qF n F.SEQ_CTRL_UPOL) }, q⟩) ∧
      (x.readDone = true → x.decided = false → x.cut = none → x.frame = decisionFrame x + 1 → passStop x = false →
        ∀ k l, x.latches = [(k, l)] → l.frame < x.frame → l.late = false → ∃ t,
        exec (.jumpDecision n) ⟨b, q⟩ = .next ⟨t, q⟩ ∧ (seqr t n).latches = [] ∧ (seqr t n).decided = true ∧
        ((seqr t n).succ.map (fun y => y.step)) = some (stJtgt (stepAt b l.owner)) ∧
        getF t (qF n F.SEQ_JUMPS_TAKEN) = (getF b (qF n F.SEQ_JUMPS_TAKEN) + 1) %
          2 ^ (F.SEQ_JUMPS_TAKEN.hi + 1 - F.SEQ_JUMPS_TAKEN.lo)) ∧
      (x.frame = x.s + x.len → x.cut = none → x.decided = true → x.succ = none →
        let c := incF b (qF n F.SEQ_PASS_COUNT)
        let u := syncSeq (newPass c n x.frame) n
        ((stLoop w = 0 ∨ getF c (qF n F.SEQ_PASS_COUNT) < stLoop w) →
          exec (.passEnd n) ⟨b, q⟩ = .next ⟨afterReads (settleJobs (holdNow u n)), q⟩ ∧
          (seqr u n).s = x.frame ∧ (seqr u n).readDone = false) ∧
        (stLoop w ≠ 0 → stLoop w ≤ getF c (qF n F.SEQ_PASS_COUNT) →
          (stEnd w = true → exec (.passEnd n) ⟨b, q⟩ = .next ⟨afterReads (settleJobs (seqEnd c n 5 3 0)), q⟩) ∧
          (stEnd w = false → exec (.passEnd n) ⟨b, q⟩ =
            .next ⟨afterReads (settleJobs (goOrUnder c n x.frame
              ⟨stNext w, false, stGsrc w != 0, 0, 255, x.empties.contains (stNext w)⟩)), q⟩))) ∧
      (x.frame = x.s + x.len → x.cut ≠ some x.frame → x.decided = true → ∀ y, x.succ = some y →
        exec (.passEnd n) ⟨b, q⟩ = .next ⟨afterReads (settleJobs
          (goOrUnder (dropCut (incF b (qF n F.SEQ_PASS_COUNT)) n) n x.frame y)), q⟩) ∧
      (x.cut ≠ some x.frame → exec (.granuleJump n) ⟨b, q⟩ = .next ⟨afterReads (settleJobs b), q⟩) ∧
      (x.cut = some x.frame → passStop x = false →
        let u := decide' b n x.frame (stGsrc w != 0 && stJgate w) true
        ∀ y, (seqr u n).succ = some y → exec (.granuleJump n) ⟨b, q⟩ =
          .next ⟨afterReads (settleJobs (goOrUnder u n x.frame y)), q⟩)) ∧
    (seqDue b n = false → exec (.ringRead n) ⟨b, q⟩ = .next ⟨afterReads b, q⟩ ∧
      exec (.jumpDecision n) ⟨b, q⟩ = .next ⟨b, q⟩ ∧ exec (.passEnd n) ⟨b, q⟩ = .next ⟨afterReads (settleJobs b), q⟩ ∧
      exec (.granuleJump n) ⟨b, q⟩ = .next ⟨afterReads (settleJobs b), q⟩)

/-- A wait whose release has come enters its successor at that frame and records how long it waited; one not released
goes on. An underrun held asks for its member every 64 frames and, once it finds it filled, goes on 64 frames later; a
hold of a DRAM blackout looks every 64 frames whether the blackout is over. A stop that has come ends the sequencer in
STOPPED with its cause. The chain of a fixed entry is read within 5,000 ns of the entry and once. The admission of
more than 20 units is given back 10 ms after frame 0. Completion (exec answers this next state, under conditions on
state and operands alone) is stated of: gateRelease, underrunHoldCheck, stopTakesEffect, carveApply, admissionRelease.
(05_segment_memory.md, 06_slalom_sequencers.md, 07_synthesis.md) -/
def Obligations.SequencerWaits : Prop :=
  ∀ (b : Block) (q : List Instr) (n : Nat), n < 16 →
    let x := seqr b n
    (seqDue b n = true → releaseHere b n = false → exec (.gateRelease n) ⟨b, q⟩ = .next ⟨afterReads (settleJobs b), q⟩) ∧
    (seqDue b n = true → releaseHere b n = true → ∀ y, x.succ = some y → y.step < 1048576 → ∃ t,
      exec (.gateRelease n) ⟨b, q⟩ = .next ⟨afterReads (settleJobs t), q⟩ ∧ getF t (qF n F.SEQ_CUR_STEP) = y.step ∧
      getF t (qF n F.SEQ_GWAIT_FRAMES) = min (2 ^ 32 - 1) (x.frame - x.waitFrom) ∧ (seqr t n).mode = 1 ∧
      (seqr t n).entry = x.frame ∧ (seqr t n).s = x.frame) ∧
    (seqDue b n = true → x.mode = 5 → x.held = 0 → ∀ y, x.succ = some y →
      (x.release = none → x.frame = x.holdNext →
        ((seg b (stepSegment b y.step)).st = 5 →
          exec (.underrunHoldCheck n) ⟨b, q⟩ = .next ⟨afterReads (settleJobs
            (setSeq b n { x with release := some (x.frame + 64) })), q⟩) ∧
        ((seg b (stepSegment b y.step)).st ≠ 5 →
          exec (.underrunHoldCheck n) ⟨b, q⟩ = .next ⟨afterReads (settleJobs
            (setSeq b n { x with holdNext := x.frame + 64 })), q⟩)) ∧
      (x.release = some x.frame →
        exec (.underrunHoldCheck n) ⟨b, q⟩ = .next ⟨afterReads (settleJobs
          (goOn (setSeq b n { x with release := none }) n x.frame y)), q⟩)) ∧
    (seqDue b n = true → x.mode = 5 → x.held ≠ 0 → x.frame = x.holdNext →
      exec (.underrunHoldCheck n) ⟨b, q⟩ = .next ⟨afterReads (settleJobs (blackoutCheck b n)), q⟩) ∧
    (getF b (qF n F.SEQ_STATE_SSTATE) = 3 → stopHere x = true → bt b n x.frame ≤ b.sysTime → ∀ y, x.stop = some y →
      exec (.stopTakesEffect n) ⟨b, q⟩ = .next ⟨settleJobs (seqEnd b n 4 y.cause y.hop), q⟩ ∧
      (y.disarm = false → x.evq = [] → y.cause < 8 → getF (seqEnd b n 4 y.cause y.hop) (qF n F.SEQ_STATE_SSTATE) = 4 ∧
        getF (seqEnd b n 4 y.cause y.hop) (qF n F.SEQ_STATE_CAUSE) = y.cause)) ∧
    (stopHere x = false → exec (.stopTakesEffect n) ⟨b, q⟩ = .next ⟨settleJobs b, q⟩) ∧
    (∀ f i, fixedEntry b n = some (f, i) → stCidx (stepAt b i) ≠ 0 → x.carved ≠ some f →
      (bt b n f ≤ b.sysTime + 5000 → exec (.carveApply n) ⟨b, q⟩ = .next ⟨carveRead (setSeq b n { x with carved := some f })
        n (stCidx (stepAt b i)) (if x.mode = 1 ∧ x.frame = x.entry ∧ f = x.entry then bt b n f else b.sysTime + 5000), q⟩) ∧
      (b.sysTime + 5000 < bt b n f → exec (.carveApply n) ⟨b, q⟩ = .next ⟨b, q⟩)) ∧
    (x.admitted = true → x.played = true → x.t0 + 10000000 ≤ b.sysTime → exec (.admissionRelease n) ⟨b, q⟩ =
      .next ⟨pacRelease (setSeq b n { x with admitted := false }) 7 500, q⟩) ∧
    (b.sysTime < x.t0 + 10000000 → exec (.admissionRelease n) ⟨b, q⟩ = .next ⟨b, q⟩)

/-- A UNIT_CONFIG of a P, D or lane unit stages its writable words for the commit strobe at the next f_M edge and
waits until they apply; of an acquisition unit they take effect at that edge, with the completion, at once where the
edge is now; one with an offset that is no register word's completes BAD_PARAM, one to a unit in calibration STATE
naming the unit. A UNIT_RANGE that needs no grant stages RANGE.SEL for every named unit and waits; one that is denied
a grant completes POWER_DENIED naming the unit. A UNIT_ENABLE in RUN or CALIBRATE of units that may be enabled and
need no grant schedules each and waits; in STANDBY it completes STATE. A UNIT_DISABLE of units that may be disabled
schedules each and waits. An inline sine TABLE_LOAD writes its entries to the inactive bank, not the active one, and
completes; on a busy die BUSY. A TABLE_SWAP marks every named die and unit and waits; on a busy die BUSY. Completion
(exec answers this next state, under conditions on state and operands alone) is stated of: unitConfig, unitRange,
unitEnable, unitDisable, tableLoad, tableSwap. (04_output_states.md, 07_synthesis.md, 13_command_processor.md) -/
def Obligations.UnitCommands : Prop :=
  ∀ (b : Block) (q : List Instr) (h : Hdr) (p d : List Word), modeOf b ≠ 0 →
    let t := fun op => takePacket b h op
    let out := fun (op : Nat) (d : List Word) (r : CmdRes) =>
      Host.Outcome.next (φ := Fault) (ρ := Refusal) (State.mk (finish h op p d r) q)
    let us := bitList (pw64 p 1) 64
    let onlyOne := (∀ u ∈ us, u < 48) ∨ (∀ u ∈ us, 48 ≤ u)
    (takes b h 0x30 p (fun n => decide (4 ≤ n) && n % 2 == 0) [0x7F] = true →
      let u := pb p 1 6 0
      let l := configPairs (p.drop 1)
      let r := configWords (t 0x30) u l
      let x := commitStrobe r.1 u r.2
      ((∃ w ∈ l, 0x100 ≤ w.1 ∨ w.1 % 4 ≠ 0 ∨ (u < 64 ∧ w.1 = R.P_RANGE)) →
        exec (.unitConfig h p) ⟨b, q⟩ = out 0x30 [] (.done (t 0x30) Sts.badParam 0 1 0)) ∧
      ((∀ w ∈ l, w.1 < 0x100 ∧ w.1 % 4 = 0 ∧ (u < 64 → w.1 ≠ R.P_RANGE)) →
        (calNamed b u = true → exec (.unitConfig h p) ⟨b, q⟩ = out 0x30 [] (.done (t 0x30) Sts.state u 1 0)) ∧
        (calNamed b u = false → x.strobes = r.1.strobes ++
          [⟨u, (if 64 ≤ u ∧ u < 96 then nextEdge r.1 else nextEdge r.1 + 4000), none, r.2, 0⟩] ∧
          ((u < 64 ∨ 96 ≤ u ∨ nextEdge b ≠ b.sysTime) → exec (.unitConfig h p) ⟨b, q⟩ = out 0x30 [] (.wait x [] 0 0)) ∧
          (64 ≤ u → u < 96 → nextEdge b = b.sysTime →
            exec (.unitConfig h p) ⟨b, q⟩ = out 0x30 [] (.done (commitEdges x) Sts.ok 0 1 0))))) ∧
    (takes b h 0x31 p (· == 4) [0xFFFFFFFF, 0xFFFFFFFF, 0xF] = true → us ≠ [] → onlyOne → (∀ u ∈ us, calNamed b u = false) →
      ((∀ u ∈ us, grantNeed b u (pb p 3 3 0) = 0) → exec (.unitRange h p) ⟨b, q⟩ = out 0x31 [] (.wait
        (forEach us (t 0x31) (fun s u => commitStrobe s u [(unitBase u + R.P_RANGE, pb p 3 3 0, 0xF)])) [1] 0 0)) ∧
      (∀ u, us = [u] → b.sys.queue = [] → grantNeed b u (pb p 3 3 0) ≠ 0 → pacAnswer (t 0x31)
          (unitRequest (t 0x31) h u (pb p 3 3 0) u (b.now + toUnit (t 0x31))) false = .deny →
        ∃ x, exec (.unitRange h p) ⟨b, q⟩ = out 0x31 [] (.done x Sts.powerDenied u 1 0) ∧ x.strobes = b.strobes ∧
          unit x u = unit b u)) ∧
    (takes b h 0x32 p (· == 3) [0xFFFFFFFF, 0xFFFFFFFF] = true → us ≠ [] →
      ((modeOf b = 1 ∨ modeOf b = 4) →
        exec (.unitEnable h p) ⟨b, q⟩ = out 0x32 [] (.done (t 0x32) Sts.state 0 1 0)) ∧
      ((modeOf b = 2 ∨ modeOf b = 3) → (∀ u ∈ us, enableBad (t 0x32) u = false ∧ grantNeed b u (selRange b u) = 0) →
        exec (.unitEnable h p) ⟨b, q⟩ = out 0x32 [] (.wait
          (forEach us (t 0x32) (fun s u => schedUnit s u (s.sysTime + 1) .enable)) [1] 0 0))) ∧
    (takes b h 0x33 p (· == 3) [0xFFFFFFFF, 0xFFFFFFFF] = true → us ≠ [] →
      (∀ u, us.find? (disableBad (t 0x33)) = some u →
        exec (.unitDisable h p) ⟨b, q⟩ = out 0x33 [] (.done (t 0x33) Sts.state u 1 0)) ∧
      ((∀ u ∈ us, disableBad (t 0x33) u = false) → (∀ j ∈ b.cmd.jobs, j.op ≠ Op.unitEnable) → ∃ x,
        exec (.unitDisable h p) ⟨b, q⟩ = out 0x33 [] (.wait x [] 0 0) ∧ x.regs = (t 0x33).regs ∧
        (∀ u ∈ us, unit x u = { unit b u with sd := 3, trans := (unit b u).trans ++ [(b.sysTime + 1, .disable)] }) ∧
        ∀ u, u ∉ us → unit x u = unit b u)) ∧
    (takes b h 0x34 p (fun n => decide (4 ≤ n)) [0xFFFF000F, 0xFFFF, 1] = true → pb p 1 3 0 < 2 → pb p 3 0 0 = 0 →
      1 ≤ pb p 2 15 0 → p.length = 3 + pb p 2 15 0 → pb p 1 31 16 + pb p 2 15 0 ≤ 16384 →
      (∀ w ∈ p.drop 3, bits w 31 24 = 0) →
      let bank := getF b (dieF (pb p 1 3 0) F.SYN_TBL_STAT_ABANK)
      (dieBusy (t 0x34) (pb p 1 3 0) = true →
        exec (.tableLoad h p d) ⟨b, q⟩ = out 0x34 d (.done (t 0x34) Sts.busy 0 1 0)) ∧
      (dieBusy (t 0x34) (pb p 1 3 0) = false → ∃ x,
        exec (.tableLoad h p d) ⟨b, q⟩ = out 0x34 d (.done x Sts.ok 0 (pb p 2 15 0) 0) ∧
        (∀ i < pb p 2 15 0, sineEntry x (pb p 1 3 0) (1 - bank) (pb p 1 31 16 + i) =
          signed 24 ((p.drop 3).getD i 0).toNat) ∧
        (∀ i < 16384, sineStored x (pb p 1 3 0) bank i = sineStored b (pb p 1 3 0) bank i) ∧
        flag x (dieF (pb p 1 3 0) F.SYN_TBL_STAT_LOAD_BUSY) = false)) ∧
    (takes b h 0x35 p (· == 2) [3] = true →
      ((∃ k ∈ bitList (pb p 1 1 0) 2, dieBusy (t 0x35) k = true) →
        exec (.tableSwap h p) ⟨b, q⟩ = out 0x35 [] (.done (t 0x35) Sts.busy 0 1 0)) ∧
      ((∀ k ∈ bitList (pb p 1 1 0) 2, dieBusy (t 0x35) k = false) → ∃ x,
        exec (.tableSwap h p) ⟨b, q⟩ = out 0x35 [] (.wait x [0] 0 0) ∧ x.tables = b.tables ∧
        ∀ k ∈ bitList (pb p 1 1 0) 2, flag x (dieF k F.SYN_TBL_STAT_SWAP_PEND) = true ∧
          ∀ u ∈ dieUnits k, unit x u = { unit b u with sineDue := some (b.sysTime + 1) }))

/-- The coming frame of a running group whose boundary has come, with nothing at that boundary still to happen, is
played to its members; before its boundary nothing happens. A unit in no group takes the latest boundary of its
cluster once, and an error met in DRAM is dealt with. A compliance onset and a modulator overload set their STATUS
bit, are PATROL events of the unit's class and are held as present until they end, the onset and the end of a
compliance limit of a unit on the calibration path being noted there; an open load shows in STATUS of a D unit in a
current range with OPEN_DET alone. A pin-time change of a range that has come shows in RANGE.ACT. A switch that fails
within its confirm window sets SW_FAIL, parks the unit with its old range at the pin and is a PATROL event; with no
confirm window open nothing happens. Completion (exec answers this next state, under conditions on state and operands
alone) is stated of: framePlayback, complianceOnset, modOvl, openLoad, rangeSwitch, swFail. (02_output_channels.md,
04_output_states.md, 07_synthesis.md) -/
def Obligations.PlaybackAndRanges : Prop :=
  ∀ (b : Block) (q : List Instr) (u n : Nat), u < 64 → n < 16 →
    ((group b n).defined = true → seqDue b n = true → frameClear b n = true →
      exec (.framePlayback (.group n)) ⟨b, q⟩ = .next ⟨afterReads (playFrame b n), q⟩) ∧
    (seqPlays b n = true → b.sysTime < bt b n (seqr b n).frame →
      exec (.framePlayback (.group n)) ⟨b, q⟩ = .next ⟨afterReads b, q⟩) ∧
    (groupOf b u ≠ none → exec (.framePlayback (.unit u)) ⟨b, q⟩ = .next ⟨afterReads b, q⟩) ∧
    (groupOf b u = none → floorTo b.sysTime (unitT b u) ≤ (unit b u).lastB →
      exec (.framePlayback (.unit u)) ⟨b, q⟩ =
        .next ⟨afterReads (settleJobs (beginSwitch b (floorTo b.sysTime (unitT b u)))), q⟩) ∧
    (groupOf b u = none → (unit b u).lastB < floorTo b.sysTime (unitT b u) →
      exec (.framePlayback (.unit u)) ⟨b, q⟩ = .next ⟨afterReads (settleJobs (beginSwitch
        (unitFrame b u (floorTo b.sysTime (unitT b u)) false true (sampleCode b ⟨false, 0, 0, 0⟩ u) 0)
        (floorTo b.sysTime (unitT b u)))), q⟩) ∧
    (∀ y, y = runLimit (setUnit b u { unit b u with comp := true }) u →
      exec (.complianceOnset ⟨u, true⟩) ⟨b, q⟩ = .next ⟨settleJobs (patrolEvent (unitFlag y u 1) 1 u), q⟩ ∧
      flag (unitFlag y u 1) (uF u F.P_STATUS_COMPLIANCE) = true ∧
      exec (.complianceOnset ⟨u, false⟩) ⟨b, q⟩ = .next ⟨runLimit (setUnit b u { unit b u with comp := false }) u, q⟩) ∧
    (∀ y, y = setUnit b u { unit b u with ovl := true } →
      exec (.modOvl ⟨u, true⟩) ⟨b, q⟩ = .next ⟨settleJobs (patrolEvent (unitFlag y u 2) 2 u), q⟩ ∧
      flag (unitFlag y u 2) (uF u F.P_STATUS_MOD_OVL) = true ∧
      exec (.modOvl ⟨u, false⟩) ⟨b, q⟩ = .next ⟨setUnit b u { unit b u with ovl := false }, q⟩) ∧
    (∃ t, exec (.openLoad u) ⟨b, q⟩ = .next ⟨t, q⟩ ∧ regsOnly b t [unitBase u + R.P_STATUS] ∧
      (48 ≤ u → isCurrent (actRange b u) = true → flag b (uF u F.D_LOADCFG_OPEN_DET) = true →
        flag t ⟨unitBase u + R.P_STATUS, 9, 9⟩ = true) ∧
      ((u < 48 ∨ isCurrent (actRange b u) = false) → t = b)) ∧
    ((∀ x ∈ (unit b u).actQ, b.sysTime < x.1) →
      exec (.rangeSwitch u) ⟨b, q⟩ = .next ⟨settleJobs (setUnit b u (unit b u)), q⟩) ∧
    (∀ a c, (unit b u).actQ = [(a, c)] → a ≤ b.sysTime → c < 16 →
      exec (.rangeSwitch u) ⟨b, q⟩ = .next ⟨settleJobs (pinChange (setUnit b u { unit b u with actQ := [] }) u c), q⟩ ∧
      getF (pinChange (setUnit b u { unit b u with actQ := [] }) u c) (uF u F.P_RANGE_ACT) = c) ∧
    ((∀ p ∈ (unit b u).swFrom.head?, b.sysTime + 1 < p) → exec (.swFail u) ⟨b, q⟩ = .next ⟨b, q⟩) ∧
    (∀ p ∈ (unit b u).swFrom.head?, p ≤ b.sysTime + 1 → ∃ x, exec (.swFail u) ⟨b, q⟩ = .next ⟨settleJobs (patrolEvent x 1 u), q⟩ ∧
      flag x (strF u F.STR_STEVT_SW_FAIL) = true ∧ getF x (uF u F.P_STATE_OSTATE) = 0 ∧ (unit x u).rc = none ∧
      (unit x u).enabled = false ∧ (unit x u).rng = getF b (strF u F.STR_SCFG_RRANGE) ∧ (unit x u).swFrom = [] ∧
      getF x (uF u F.P_RANGE_ACT) = getF b (uF u F.P_RANGE_ACT))

/-- At a multiple of 10 ms TEMP_SAMPLE gives every cluster with a valid reading its temperature, shows each die's
hottest reading in TEMP_NOW and lets PAC look at its queue; a die at or below its limit raises no event. TEMP_STALE
flags the units of a cluster not heard for 100 ms and no other. SENSE_CHECK, once at a multiple of 10 ms, flags an
open sense of a voltage-mode unit, and does nothing more for a current range. The tracker locks after 16 periods near
its frequency with a peak of 1 V, flagging EXC_RANGE where it was unlocked for 64 periods, and unlocks after four bad
ones or off its frequency, XSTAT.TRK_LOCK following, and else nothing changes. An excitation window of a unit in the
ratiometric range shows VEXC and QUAD (after a lock, from its sixteenth period on), the peak and the limits' flags,
and of any other changes nothing. The onset of an enabled comparator's alarm, after the filter's samples beyond its
thresholds, sets its level, latch and STATUS.CMP and, awake, is logged, fires its source and, with SAFE, takes the
package to SAFE; samples back by the hysteresis take the level back. Completion (exec answers this next state, under
conditions on state and operands alone) is stated of: tempSample, tempStale, senseCheck, trkLock, trkLockLoss,
excWindowEnd, comparatorAlarm, comparatorClear. (02_output_channels.md, 03_bridge_simulation.md,
16_modes_power_faults.md, 17_host_links_startup.md) -/
def Obligations.MonitorHappenings : Prop :=
  ∀ (b : Block) (q : List Instr),
    (∀ t : Temps, b.sysTime % 10000000 = 0 → exec (.tempSample t) ⟨b, q⟩ = .next ⟨settleJobs (pacVisit (dieTemp (dieTemp
        (dieTemp (forEach ((t.clusters.take 24).zipIdx) b (fun s p => match p.1 with
          | some v => giveTemp s p.2 v
          | none => s)) 0 (hottest 0 t.adie0 t.clusters)) 1 (hottest 1 t.adie1 t.clusters)) 2
          (hottest 2 t.cdie t.clusters))), q⟩) ∧
    (∀ t : Temps, b.sysTime % 10000000 ≠ 0 → exec (.tempSample t) ⟨b, q⟩ = .next ⟨b, q⟩) ∧
    (∀ (d : Nat) (w : Int), d < 3 → w ≤ (getF b (dieFld F.PATROL_TEMP_LIM_ADIE0 d) : Int) * 128 →
      getF (dieTemp b d w) (dieFld F.PATROL_TEMP_NOW_ADIE0 d) = unsigned 8 (satS 8 (w / 128)) ∧
      (dieTemp b d w).sys = b.sys) ∧
    (∀ k v u, k < 16 → u ∈ clusterUnits k → (unit (giveTemp b k v) u).tempNew = some (v, b.sysTime) ∧
      (unit (giveTemp b k v) u).tempAt = b.now) ∧
    (∀ k, k < 16 → ∃ t, exec (.tempStale k) ⟨b, q⟩ = .next ⟨t, q⟩ ∧
      regsOnly b t ((clusterUnits k).map (fun u => unitBase u + R.P_STATUS)) ∧
      ∀ u ∈ clusterUnits k, flag t (uF u F.P_STATUS_TEMP_STALE) =
        (flag b (uF u F.P_STATUS_TEMP_STALE) || decide ((unit b u).tempAt + 100000000 ≤ b.now))) ∧
    (∀ k, 16 ≤ k → k < 24 → ∃ t, exec (.tempStale k) ⟨b, q⟩ = .next ⟨t, q⟩ ∧
      ∀ j < 4, flag t (aF (4 * (k - 16) + j) F.A_STATUS_TEMP_STALE) =
        (flag b (aF (4 * (k - 16) + j) F.A_STATUS_TEMP_STALE) ||
          decide ((unit b (64 + 4 * (k - 16) + j)).tempAt + 100000000 ≤ b.now))) ∧
    (∀ u o, u < 64 → (b.sysTime % 10000000 ≠ 0 ∨ (unit b u).senseAt = b.sysTime + 1 →
        exec (.senseCheck u o) ⟨b, q⟩ = .next ⟨b, q⟩) ∧
      (b.sysTime % 10000000 = 0 → (unit b u).senseAt ≠ b.sysTime + 1 →
        ((isCurrent (actRange b u) || senseOff b u) = true → exec (.senseCheck u o) ⟨b, q⟩ =
          .next ⟨setUnit b u { unit b u with senseInt := false, senseAt := b.sysTime + 1 }, q⟩) ∧
        ((isCurrent (actRange b u) || senseOff b u) = false → ∃ t, exec (.senseCheck u o) ⟨b, q⟩ = .next ⟨t, q⟩ ∧
          unit t u = { unit b u with senseInt := o, senseAt := b.sysTime + 1 } ∧
          (o = true → flag t (uF u F.P_STATUS_SENSE_OPEN) = true)))) ∧
    (∀ u, u < 48 →
      (∀ (r : TrkReport) (may : Prop), may = (tracking b u = true ∧ locked b u = false ∧ 16 ≤ r.errs.length ∧
          (∀ e ∈ r.errs.take 16, e < 1000) ∧ nearFnom b u r.freq = true ∧ 1000000 ≤ r.peak) →
        (¬may → exec (.trkLock ⟨u, r⟩) ⟨b, q⟩ = .next ⟨b, q⟩) ∧
        (may → ∃ t, exec (.trkLock ⟨u, r⟩) ⟨b, q⟩ = .next ⟨t, q⟩ ∧ flag t (F.BRG_XSTAT_TRK_LOCK.at (brgBase u)) = true ∧
          (unit t u).exc.blendAt = b.sysTime + 1 ∧ (unit t u).exc.unlockAt = 0 ∧ (unit t u).exc.periods = [] ∧
          (longUnlocked b u = true → flag t (uF u F.P_STATUS_EXC_RANGE) = true) ∧
          (longUnlocked b u = false → getW t (unitBase u + R.P_STATUS) = getW b (unitBase u + R.P_STATUS)) ∧
          regsOnly { b with units := t.units } t [brgBase u + R.BRG_XSTAT, unitBase u + R.P_STATUS])) ∧
      (∀ (r : TrkReport) (off : Prop), off = (locked b u = true ∧
          (nearFnom b u r.freq = false ∨ (4 ≤ r.errs.length ∧ ∀ e ∈ r.errs.take 4, 10000 < e))) →
        (¬off → exec (.trkLockLoss ⟨u, r⟩) ⟨b, q⟩ = .next ⟨b, q⟩) ∧
        (off → ∃ t, exec (.trkLockLoss ⟨u, r⟩) ⟨b, q⟩ = .next ⟨t, q⟩ ∧
          flag t (F.BRG_XSTAT_TRK_LOCK.at (brgBase u)) = false ∧ (unit t u).exc.unlockAt = b.sysTime + 1 ∧
          (unit t u).exc.blendAt = b.sysTime + 1 ∧ regsOnly { b with units := t.units } t [brgBase u + R.BRG_XSTAT])) ∧
      (∀ w : ExcWindow, (actRange b u ≠ 4 ∨ w.samples = []) → exec (.excWindowEnd u w) ⟨b, q⟩ = .next ⟨b, q⟩) ∧
      (∀ (w : ExcWindow) (last : ExcSample), actRange b u = 4 → w.samples.getLast? = some last →
        (∀ p ∈ w.samples.zipIdx,
          (excUsed b u (b.sysTime - 25 * (w.samples.length - 1 - p.2)) p.1).natAbs ≤ 16000000) →
        let l := if locked b u = true then (excPeriod w :: (unit b u).exc.periods).take 16 else [excPeriod w]
        let wait := locked b u && decide (l.length < 16)
        let low := decide (excHighAt b (unit b u).exc.highAt w.samples + 1000000 ≤ b.sysTime + 1)
        ∃ t, exec (.excWindowEnd u w) ⟨b, q⟩ = .next ⟨t, q⟩ ∧ (unit t u).exc.win = w.samples.reverse ∧
        (unit t u).exc.winAt = b.sysTime + 1 ∧
        regsOnly { b with units := t.units } t
          [unitBase u + 0x34, brgBase u + R.BRG_XSTAT, brgBase u + R.BRG_XPEAK, unitBase u + R.P_STATUS] ∧
        getF t (uF u F.P_EXC_VEXC) = (if wait = true then getF b (uF u F.P_EXC_VEXC)
          else satU 16 (if tracking b u = true then excRms l else excMean w.samples)) ∧
        getF t (uF u F.P_EXC_QUAD) = (if wait = true then getF b (uF u F.P_EXC_QUAD)
          else if locked b u = true then quadCode (excQuad l) else 0x8000) ∧
        getF t (F.BRG_XPEAK_UV.at (brgBase u)) = satU 24 (l.foldl (fun m p => max m p.2.2.1) 0) ∧
        flag t (F.BRG_XSTAT_EXC_LOW.at (brgBase u)) = low ∧
        flag t (F.BRG_XSTAT_EXC_HIGH.at (brgBase u)) = decide (15000000 < excPeak w.samples) ∧
        flag t (F.BRG_XSTAT_CM_CLAMP.at (brgBase u)) = cmClamped last ∧
        (lowRun b (unit b u).exc.highAt w.samples = true ∨ w.samples.any cmClamped = true ∨ 15000000 < excPeak w.samples ∨
          longUnlocked b u = true → flag t (uF u F.P_STATUS_EXC_RANGE) = true))) ∧
    (∀ k mv, k < 8 →
      (flag b (cmpBit F.AON_CMP_STATE_LEVEL k) = true ∨ cmpRun b k mv (cmpBeyond b k) = false →
        exec (.comparatorAlarm ⟨k, mv⟩) ⟨b, q⟩ = .next ⟨b, q⟩) ∧
      (flag b (cmpBit F.AON_CMP_STATE_LEVEL k) = false ∨ cmpRun b k mv (cmpBack b k) = false →
        exec (.comparatorClear ⟨k, mv⟩) ⟨b, q⟩ = .next ⟨b, q⟩) ∧
      (flag b (cmpBit F.AON_CMP_STATE_LEVEL k) = true → cmpRun b k mv (cmpBack b k) = true → ∃ t,
        exec (.comparatorClear ⟨k, mv⟩) ⟨b, q⟩ = .next ⟨t, q⟩ ∧ flag t (cmpBit F.AON_CMP_STATE_LEVEL k) = false ∧
        flag t (cmpBit F.AON_CMP_STATE_LATCH k) = flag b (cmpBit F.AON_CMP_STATE_LATCH k)) ∧
      (b.aon.on = true → flag b (cmpF k F.AON_CMP0_CFG_EN) = true → flag b (cmpBit F.AON_CMP_STATE_LEVEL k) = false →
        cmpRun b k mv (cmpBeyond b k) = true →
        ∃ x, (flag x (cmpBit F.AON_CMP_STATE_LEVEL k) = true ∧ flag x (cmpBit F.AON_CMP_STATE_LATCH k) = true ∧
          flag x F.AON_STATUS_CMP = true) ∧
        ((awake b = false ∨ modeOf b = 5) → exec (.comparatorAlarm ⟨k, mv⟩) ⟨b, q⟩ = .next ⟨x, q⟩) ∧
        (awake b = true → modeOf b ≠ 5 →
          let y := syncLevels (fire (patrolLog x 0x27 0 0 k) (128 + k) 0 x.sysTime)
          exec (.comparatorAlarm ⟨k, mv⟩) ⟨b, q⟩ =
            .next ⟨settleJobs (if flag b (cmpF k F.AON_CMP0_CFG_SAFE) = true then packageSafe y 11 else y), q⟩)))

/-- A low VIO makes every lane of its cluster high-impedance, sets VIO_LOW and clears VIO_OK, and leaves the cluster's
state; its return sets VIO_OK and gives the pins back to the present state from the next 5 ns instant, and changes
nothing where the supply was not low. A level of the chosen kind on an input lane of LC7, held for more samples than
the filter asks, moves its level and fires source 144 + j; one of another kind fires nothing, and a shorter one
changes no register. A contention check reads the pads into STATE.PIN. A level of EVINk that is a change and is held
for more samples than the filter asks fires source 152 + k where its edge is chosen; one that is no change or shorter
changes nothing. Completion (exec answers this next state, under conditions on state and operands alone) is stated of:
vioLow, vioRecover, laneInputEdge, laneContentionCheck, evinEdge. (08_pattern_lanes.md, 10_events_gyden.md) -/
def Obligations.LanePads : Prop :=
  ∀ (b : Block) (q : List Instr) (c j k samples : Nat) (level : Bool) (pads : Byte), c < 8 → j < 8 → k < 8 →
    (∃ t, exec (.vioLow c) ⟨b, q⟩ = .next ⟨t, q⟩ ∧ flag t (lF c F.LC_STATUS_VIO_LOW) = true ∧
      flag t (lF c F.LC_STATE_VIO_OK) = false ∧ (lane t c).vioOff = true ∧
      lanePins t c = (0, 255) ∧ (lane t c).pipe = (lane b c).pipe ∧ getF t (lF c F.LC_STATE_CSTATE) = getF b (lF c F.LC_STATE_CSTATE) ∧ t.fires = b.fires) ∧
    ((lane b c).vioOff = false → exec (.vioRecover c) ⟨b, q⟩ = .next ⟨b, q⟩) ∧
    ((lane b c).vioOff = true → ∃ t, exec (.vioRecover c) ⟨b, q⟩ = .next ⟨t, q⟩ ∧ (lane t c).vioOff = false ∧
      flag t (lF c F.LC_STATE_VIO_OK) = true ∧ t.fires = b.fires ∧
      (lane t c).pipe = (lane b c).pipe ∧ (lane t c).vioBack = nextBit b.sysTime ∧ lanePins t c = (0, 255)) ∧
    (∃ t, exec (.laneInputEdge j ⟨level, samples⟩) ⟨b, q⟩ = .next ⟨t, q⟩ ∧ (lane t 7).raw.testBit j = level ∧
      ((lane b 7).vioOff = true ∨ j ∉ inputLanes b ∨ samples ≤ bits (incfgNow b) 23 16 → t.regs = b.regs ∧ t.fires = b.fires) ∧
      ((lane b 7).vioOff = false → j ∈ inputLanes b → bits (incfgNow b) 23 16 < samples →
        (getF b (lF 7 F.LC_INCFG_LEVEL)).testBit j = !level →
        (getF t (lF 7 F.LC_INCFG_LEVEL)).testBit j = level ∧
        (edgeChosen b j level = false → t.fires = b.fires) ∧
        (edgeChosen b j level = true → Tbl.get (fun _ => 0) (lane b 7).lastEv j = 0 →
          t.fires = b.fires ++ [⟨144 + j, 0, b.sysTime⟩]))) ∧
    (∃ t, exec (.laneContentionCheck c pads) ⟨b, q⟩ = .next ⟨t, q⟩ ∧ getF t (lF c F.LC_STATE_PIN) = pads.toNat ∧
      getF t (lF c F.LC_STATE_CSTATE) = getF b (lF c F.LC_STATE_CSTATE) ∧ t.fires = b.fires ∧ t.seqs = b.seqs) ∧
    (let cfg := regThen b R.EVENT_EVINCFG
     let filt := bits cfg F.EVENT_EVINCFG_FILT.hi F.EVENT_EVINCFG_FILT.lo
     let chosen := (bits cfg (2 * k + 1) (2 * k)).testBit (if level = true then 0 else 1)
     (b.event.evin.testBit k = level ∨ routerOn b = false ∨ samples ≤ filt →
        exec (.evinEdge k ⟨level, samples⟩) ⟨b, q⟩ = .next ⟨b, q⟩) ∧
     (b.event.evin.testBit k = !level → routerOn b = true → filt < samples →
      ∃ t, exec (.evinEdge k ⟨level, samples⟩) ⟨b, q⟩ = .next ⟨t, q⟩ ∧ t.event.evin.testBit k = level ∧
        (∀ i, i ≠ k → t.event.evin.testBit i = b.event.evin.testBit i) ∧ (chosen = false → t.fires = b.fires) ∧
        (chosen = true → Tbl.get (fun _ => 0) b.event.evinAt k = 0 → t.fires = b.fires ++ [⟨152 + k, 0, b.sysTime⟩])))

/-- A legal ACQ_CONFIG without upload gives the capture its configuration and its units their membership, and leaves
every other capture's; of an armed capture it completes STATE. An inline TRACK_LOAD of sound states writes exactly
those states and the number of states in use. ACQ_ARM of a configured capture whose units, program and segment pass
every check clears the arm's counts and leaves the engine waiting for its event, or running from the first tick after
the step; one not configured completes STATE. ACQ_ABORT of a running capture waits, of one waiting for its event ends
it ABORTED, of another changes nothing and completes OK. ACQ_READOUT copies the first record it asks for, and
completes OK where that is all, or goes on; where the record is not there it completes PARTIAL in 0 steps, of none OK,
where it meets an uncorrectable word DRAM_FROZEN, and to a destination outside the window BAD_PARAM; an error it met
is dealt with. Completion (exec answers this next state, under conditions on state and operands alone) is stated of:
acqConfig, trackLoad, acqArm, acqAbort, acqReadout. (09_acquisition.md, 13_command_processor.md) -/
def Obligations.AcquisitionCommands : Prop :=
  ∀ (b : Block) (q : List Instr) (h : Hdr) (p d : List Word), modeOf b ≠ 0 →
    let k := pb p 1 1 0
    let t := fun op => takePacket b h op
    let out := fun (op : Nat) (d : List Word) (r : CmdRes) =>
      Host.Outcome.next (φ := Fault) (ρ := Refusal) (State.mk (finish h op p d r) q)
    (takes b h 0x40 p (· == 10) [0x80031F03, 0xFFFFFFFF, 0xFFFFFFFF, 0xFFFFFF, 0xFFFFFFFF, 0x1FFFF, 0xFFFFFFFF, 0xFFFFFFFF, 0x1F] = true →
      (capArmed b k = true → exec (.acqConfig h p) ⟨b, q⟩ = out 0x40 [] (.done (t 0x40) Sts.state 0 1 0)) ∧
      (capArmed b k = false → pb p 1 31 31 = 0 → pb p 1 16 16 = 0 → pw p 2 ≠ 0 → pw p 4 ≤ 16777215 → pw p 5 ≠ 0 →
        1 ≤ pw p 6 → pw p 6 ≤ 65536 →
        let c : CapCfg :=
          { fgrp := pb p 1 11 8, fgrpEn := decide (pb p 1 12 12 = 1), up := false, redEn := decide (pb p 1 17 17 = 1),
            units := pw p 2, capseg := pb p 3 15 0, redseg := if pb p 1 17 17 = 1 then pb p 3 31 16 else 0,
            pre := pw p 4, post := pw p 5, records := pw p 6 }
        (∀ n ∈ capUnits c, flag b (aF n F.A_STATUS_IN_CAP) = false) →
        ∃ u, exec (.acqConfig h p) ⟨b, q⟩ = out 0x40 [] (.done u Sts.ok 0 1 0) ∧ (cap u k).cfg = c ∧
          flag u (tF k F.TRACK_STATE_CONFIGURED) = true ∧ (∀ i, i ≠ k → cap u i = cap b i) ∧
          ∀ n ∈ capUnits c, flag u (aF n F.A_STATUS_IN_CAP) = true ∧ getF u (aF n F.A_STATUS_CAP) = k)) ∧
    (takes b h 0x41 p (fun n => decide (2 ≤ n)) [0x10FFF03] = true → capArmed b k = false → pb p 1 24 24 = 0 →
      p.length = 1 + 17 * (pb p 1 15 12 + 1) → pb p 1 11 8 + (pb p 1 15 12 + 1) ≤ 16 →
      (∀ i ≤ pb p 1 15 12, stateBad (loadState (p.drop 1) i) = false) →
      ∃ u, exec (.trackLoad h p d) ⟨b, q⟩ = out 0x41 d (.done u Sts.ok 0 1 0) ∧ (cap u k).nst = pb p 1 19 16 + 1 ∧
        (cap u k).cfg = (cap b k).cfg ∧ flag u (tF k F.TRACK_STATE_LOADED) = true ∧
        ∀ i, Tbl.get (fun _ => (0 : Word)) (cap u k).prog i =
          (if 17 * pb p 1 11 8 ≤ i ∧ i < 17 * (pb p 1 11 8 + pb p 1 15 12 + 1) then
            (p.drop 1).getD (i - 17 * pb p 1 11 8) 0 else Tbl.get (fun _ => (0 : Word)) (cap b k).prog i)) ∧
    (takes b h 0x42 p (· == 2) [0x103] = true → dramBad (t 0x42) = false →
      let us := (List.range 32).filter (fun n => (refUnits b k).contains n)
      let cf := (cap b k).cfg
      (flag b (tF k F.TRACK_STATE_CONFIGURED) = false →
        exec (.acqArm h p) ⟨b, q⟩ = out 0x42 [] (.done (t 0x42) Sts.state 0 1 0)) ∧
      (flag b (tF k F.TRACK_STATE_CONFIGURED) = true → (cap b k).nst ≠ 0 → capArmed b k = false →
        (∀ n ∈ us, calNamed b (64 + n) = false ∧ flag b (aF n F.A_CTRL_EN) = true ∧
          getF b (aF n F.A_CTRL_ODR) = getF b (aF (us.headD 0) F.A_CTRL_ODR)) →
        (∀ x < (cap b k).nst, ∀ i < 4, cNext (condAt b k x i) < (cap b k).nst) →
        armSegBad (t 0x42) cf.capseg = false → cf.redEn = false → cf.up = false →
        cf.records * slotBytes cf ≤ segSize (seg b cf.capseg) →
        ∃ u, exec (.acqArm h p) ⟨b, q⟩ = out 0x42 [] (.done u Sts.ok 0 1 0) ∧
          getF u (tF k F.TRACK_STATE_ESTATE) = (if pb p 1 8 8 = 1 then 1 else 2) ∧
          getF u (tF k F.TRACK_RECDONE_COUNT) = 0 ∧ getF u (tF k F.TRACK_TRIGS_COUNT) = 0 ∧
          getF u (tF k F.TRACK_STATE_CUR) = 0 ∧ (cap u k).cfg = cf ∧ (cap u k).prog = (cap b k).prog ∧
          (pb p 1 8 8 = 0 → (cap u k).tick = b.sysTime / capPeriod u k + 1) ∧ ∀ i, i ≠ k → cap u i = cap b i)) ∧
    (takes b h 0x43 p (· == 2) [3] = true →
      (capRuns b k = true → exec (.acqAbort h p) ⟨b, q⟩ =
        out 0x43 [] (.wait (setCap (t 0x43) k { cap b k with abort := true }) [] 0 0)) ∧
      (capRuns b k = false → capArmed b k = true → exec (.acqAbort h p) ⟨b, q⟩ =
        out 0x43 [] (.done (abortCapture (t 0x43) k) Sts.ok 0 1 0)) ∧
      (capRuns b k = false → capArmed b k = false →
        exec (.acqAbort h p) ⟨b, q⟩ = out 0x43 [] (.done (t 0x43) Sts.ok 0 1 0))) ∧
    (takes b h 0x44 p (· == 6) [0x103, 0xFFFFFFFF, 0xFFFFFFFF, 0xFFFFFFFF, 0xFFFFFFFF] = true → dramBad (t 0x44) = false →
      let size := pw p 3 * readoutSize b p
      let c := readoutCheck (t 0x44) p 0
      let ends := fun r => exec (.acqReadout h p) ⟨b, q⟩ = .next ⟨afterReads (finish h 0x44 p [] r), q⟩
      (destOk (t 0x44) h (pw64 p 4) size = false → ends (.done (t 0x44) Sts.badParam 0 1 0)) ∧
      (destOk (t 0x44) h (pw64 p 4) size = true →
        (pw p 3 = 0 → ends (.done (t 0x44) Sts.ok 0 1 0)) ∧
        (pw p 3 ≠ 0 → ueMet c = true → ends (.done c Sts.dramFrozen 0 1 0)) ∧
        (pw p 3 ≠ 0 → ueMet c = false → pb p 1 8 8 = 0 →
          (linearRecord c k (pw p 2) = none → ends (.done c Sts.partially 0 0 0)) ∧
          (∀ l, linearRecord c k (pw p 2) = some l →
            (pw p 3 = 1 → ends (.done (toHost c h (pw64 p 4) l) Sts.ok 0 1 0)) ∧
            (pw p 3 ≠ 1 → ends (.more (toHost c h (pw64 p 4) l) 1 0 [1])))) ∧
        (quiet b = true → b.mem.errs = [] → ueMet c = false ∧ c.mem = b.mem)))

/-- The word of the latest tick that a converting, settled unit outside SAFE owes is its value corrected by the bank
in use at that tick, clamped to 24 bits, OVR where the clamp acted, and is shown in LAST; a settling unit's word and
one of a region in SAFE is a missing word. A unit that is not enabled delivers none, nor does one at a tick in skipped
time. A running engine whose units' words of its next tick have all come runs that tick, or ends ABORTED with the
records done kept where an abort waits; one that does not run does nothing. A stored block is copied to the host ring
where there is room, the write offset moves past it, no other byte of host memory changes, and an error met in DRAM is
dealt with, an uncorrectable one leaving the block; without upload, or while DRAM serves no request, nothing is
copied. Completion (exec answers this next state, under conditions on state and operands alone) is stated of:
acqSample, trackTick, uploadBlock. (09_acquisition.md) -/
def Obligations.AcquisitionHappenings : Prop :=
  ∀ (b : Block) (q : List Instr) (n k : Nat) (x cmon : Int), n < 32 → k < 4 →
    let y := aunit b n
    let per := samplePeriod b n
    let i := sampleTick b (sampleDelay b n) per
    let v := correctSample (swapABank b n (i * per)) n x
    let c := clampI (-maxValue) maxValue v
    let last := fun (s : Block) => (getW s (unitBase (64 + n) + R.A_LAST)).toNat
    ((flag b (aF n F.A_CTRL_EN) = false ∨ tickSkipped b i per = true) → exec (.acqSample n x cmon) ⟨b, q⟩ = .next ⟨b, q⟩) ∧
    (flag b (aF n F.A_CTRL_EN) = true → modeOf b ≠ 0 → modeOf b ≠ 5 → sampleDelay b n ≤ b.sysTime → y.next ≤ i →
      tickSkipped b i per = false → onCalPath b (64 + n) = false → ∃ t,
      exec (.acqSample n x cmon) ⟨b, q⟩ = .next ⟨t, q⟩ ∧ (aunit t n).next = i + 1 ∧
      ((getF b F.PATROL_RGN_STATE_SAFE).testBit (regionOf (64 + n)) = true → last t = sampleWord 0 false true ∧
        flag t (aF n F.A_STATUS_MISS) = true) ∧
      ((getF b F.PATROL_RGN_STATE_SAFE).testBit (regionOf (64 + n)) = false →
        (0 < y.settle → last t = sampleWord 0 false true ∧ (aunit t n).settle = y.settle - 1) ∧
        (y.settle = 0 → last t = sampleWord c (c != v) false ∧
          (c ≠ v → flag t (aF n F.A_STATUS_OVR) = true ∧ getF t (aF n F.A_OVCOUNT_COUNT) =
            (getF b (aF n F.A_OVCOUNT_COUNT) + 1) % 2 ^ (F.A_OVCOUNT_COUNT.hi + 1 - F.A_OVCOUNT_COUNT.lo))))) ∧
    (capRuns b k = false → exec (.trackTick k) ⟨b, q⟩ = .next ⟨b, q⟩) ∧
    (capRuns b k = true → nextTick b k (cap b k).tick * capPeriod b k + capDelay b k ≤ b.sysTime →
      (∀ m ∈ refUnits b k, nextTick b k (cap b k).tick < (aunit b m).next) →
      ((cap b k).abort = false → exec (.trackTick k) ⟨b, q⟩ =
        .next ⟨settleAborts (runTick b k (nextTick b k (cap b k).tick)) k, q⟩) ∧
      ((cap b k).abort = true → exec (.trackTick k) ⟨b, q⟩ = .next ⟨settleAborts (abortCapture b k) k, q⟩ ∧
        getF (abortCapture b k) (tF k F.TRACK_STATE_ESTATE) = 4 ∧
        getF (abortCapture b k) (tF k F.TRACK_RECDONE_COUNT) = getF b (tF k F.TRACK_RECDONE_COUNT))) ∧
    (((cap b k).cfg.up = false ∨ dramBad b = true ∨ dramStalled b = true ∨ b.boot.pcieUp = false) →
      exec (.uploadBlock k) ⟨b, q⟩ = .next ⟨afterReads b, q⟩) ∧
    (let a := cap b k
     let cf := a.cfg
     let w := (getF b (tF k F.TRACK_UP_WPTR_OFS) + 64) % 2 ^ cf.upSize
     let dst := cf.upAddr + (a.upBase + a.sent * 64) % 2 ^ cf.upSize
     let s := checkSeg b 9 k 0 cf.capseg (blockOfs b a a.sent) 64
     let u := setF (setCap (sendBlock s k a.sent) k { a with sent := a.sent + 1 }) (tF k F.TRACK_UP_WPTR_OFS) w
     cf.up = true → dramBad b = false → dramStalled b = false → b.boot.pcieUp = true →
      a.again.find? (fun p => decide (p.2 ≤ a.sent)) = none → a.sent < a.stored →
      w ≠ getF b (tF k F.TRACK_UP_RPTR_OFS) / 64 * 64 → w < 2 ^ 32 →
      exec (.uploadBlock k) ⟨b, q⟩ = .next ⟨afterReads (if ueMet s = true then s else u), q⟩ ∧
      (quiet b = true → b.mem.errs = [] → ueMet s = false ∧ quiet u = true) ∧ getF u (tF k F.TRACK_UP_WPTR_OFS) = w ∧
      (cap u k).sent = a.sent + 1 ∧ (b.mem.errs = [] → u.mem = b.mem) ∧
      (Tbl.wf (fun _ => (0 : Byte)) b.cmd.hostMem = true →
        (∀ o < 64, Tbl.get (fun _ => (0 : Byte)) u.cmd.hostMem (dst + o) =
          (segBytes b (seg b cf.capseg) (a.sent % max 1 (capBlocks b cf) * 64) 64).getD o 0) ∧
        (∀ d, d < dst ∨ dst + 64 ≤ d →
          Tbl.get (fun _ => (0 : Byte)) u.cmd.hostMem d = Tbl.get (fun _ => (0 : Byte)) b.cmd.hostMem d)))

/-- A firing that is due enters the router's cycle and leaves the firings that wait; one that nothing caused does not
happen. In the cycle after, the events are delivered to the sinks, judged by the routes and levels as they stood when
that cycle began: a sink that does not route the source is not changed, an ungated sink's consumer takes one delivery
with the event's hop count and is counted, and with the router empty nothing happens. A timer whose time has come
fires its source and ends its run with the last firing, or goes on after its period; one whose time has not come does
nothing. A pulse of EVOUT that has run its width ends, and a queued one begins 25 ns later. Completion (exec answers
this next state, under conditions on state and operands alone) is stated of: eventFire, eventDelivery, tmrFire,
evoutPulseEnd. (10_events_gyden.md) -/
def Obligations.EventRouter : Prop :=
  ∀ (b : Block) (q : List Instr) (src hop n : Nat), src < 192 → n < 8 →
    ((∀ f ∈ b.fires, ¬(f.src = src ∧ f.hop = hop ∧ f.due ≤ b.sysTime)) →
      exec (.eventFire src hop) ⟨b, q⟩ = .next ⟨b, q⟩) ∧
    (∀ f, b.fires = [f] → f.src = src → f.hop = hop → f.due ≤ b.sysTime → routerOn b = true → b.event.bus = [] →
      ∃ t, exec (.eventFire src hop) ⟨b, q⟩ = .next ⟨t, q⟩ ∧ t.fires = [] ∧
        t.event.bus = [(src, hop, floorTo b.sysTime 5)] ∧ t.event.tmrs = b.event.tmrs ∧ t.seqs = b.seqs ∧
        (getF b F.EVENT_SRCSEL_SRC ≠ src → getF t F.EVENT_SRCCOUNT_COUNT = getF b F.EVENT_SRCCOUNT_COUNT)) ∧
    (b.event.bus = [] → exec .eventDelivery ⟨b, q⟩ = .next ⟨b, q⟩) ∧
    (∀ c, b.event.bus = [(src, hop, c)] → routerOn b = true →
      (b.sysTime < c + 5 → exec .eventDelivery ⟨b, q⟩ = .next ⟨b, q⟩) ∧
      (c + 5 ≤ b.sysTime →
        let u := { b with event := { b.event with bus := [] } }
        exec .eventDelivery ⟨b, q⟩ =
          .next ⟨settleJobs (forEach (List.range 160) u (deliver [(src, hop)] (levelsThen u) (c + 5))), q⟩)) ∧
    (∀ (s : Block) (k lv c : Nat), (src ∉ routedSources s k → deliver [(src, hop)] lv c s k = s) ∧
      (src ∈ routedSources s k → bit (routeThen s k).2 9 = false → deliver [(src, hop)] lv c s k =
        consume (incF (addCounts s k 1 0) F.EVENT_DELIVERED_COUNT) k hop 1 c) ∧
      (src ∈ routedSources s k → bit (routeThen s k).2 9 = true →
        lv.testBit (bits (routeThen s k).2 8 4) = bit (routeThen s k).2 10 →
        deliver [(src, hop)] lv c s k = incF (addCounts s k 0 1) F.EVENT_GATED_COUNT)) ∧
    (((tmr b n).next = 0 ∨ b.sysTime < (tmr b n).next) → exec (.tmrFire n) ⟨b, q⟩ = .next ⟨b, q⟩) ∧
    ((tmr b n).next ≠ 0 → (tmr b n).next ≤ b.sysTime → (tmr b n).hop < 8 → routerOn b = true → ∃ t,
      exec (.tmrFire n) ⟨b, q⟩ = .next ⟨t, q⟩ ∧ t.fires = b.fires ++ [⟨136 + n, (tmr b n).hop, (tmr b n).next⟩] ∧
      ((tmr b n).bounded = true → (tmr b n).left ≤ 1 → (tmr b n).queued = none → (tmr t n).next = 0) ∧
      (((tmr b n).bounded = false ∨ 2 ≤ (tmr b n).left) → (tmr t n).next = (tmr b n).next + (tmr b n).period ∧
        (tmr t n).left = (tmr b n).left - 1) ∧ ∀ m, m ≠ n → tmr t m = tmr b m) ∧
    (evTime b.event.pulses n = 0 → evTime b.event.starts n = 0 → exec (.evoutPulseEnd n) ⟨b, q⟩ = .next ⟨b, q⟩) ∧
    (evTime b.event.pulses n ≠ 0 → evTime b.event.pulses n ≤ b.sysTime + 1 → routerOn b = true → ∃ t,
      exec (.evoutPulseEnd n) ⟨b, q⟩ = .next ⟨t, q⟩ ∧ flag t (evStat F.EVENT_EVOUT_STAT_ACTIVE n) = false ∧
      evTime t.event.pulses n = 0 ∧ evTime t.event.starts n =
        (if flag b (evStat F.EVENT_EVOUT_STAT_QUEUED n) = true then evTime b.event.pulses n + 25 else 0)) ∧
    (evTime b.event.pulses n = 0 → evTime b.event.starts n ≠ 0 → evTime b.event.starts n ≤ b.sysTime + 1 →
      routerOn b = true → ∃ t,
      exec (.evoutPulseEnd n) ⟨b, q⟩ = .next ⟨t, q⟩ ∧ flag t (evStat F.EVENT_EVOUT_STAT_ACTIVE n) = true ∧
      evTime t.event.pulses n = evTime b.event.starts n + pulseWidth b n ∧ evTime t.event.starts n = 0)

/-- At its scheduled slot a pulse is counted and waits for its application, driven for 100 ns on a package on the bus,
and a line with no slot due sends nothing. A line event heard by a node in UP waits for its slot's application; off
the bus nothing does. At T + L_SYS the line's event is applied and fires source 120 + k. An epoch begins at a SYSTIME
multiple of 1,000,000 ns on a package off the bus, and at the GSYNC on a node. A GDAT frame with a bad CRC is flagged
and counted and changes nothing else; a good one updates what is known of its node. A frame goes out once in an epoch,
ending TX_BUSY unless a prepare or commit goes in it. A node not heard for 16 epochs is lost. A node in UP that loses
GCLK is flagged, counted, and leaves UP. Completion (exec answers this next state, under conditions on state and
operands alone) is stated of: gevSlotSend, gevReceive, gevApply, epoch, gdatFrameReceive, gdatFrameSend, nodeLost,
gclkLost. (10_events_gyden.md) -/
def Obligations.GydenHappenings : Prop :=
  ∀ (b : Block) (q : List Instr) (k n : Nat) (err : Int) (f : GdatFrame), k < 8 → n < 16 → f.node = n → routerOn b = true →
    (gclkGone b = false → levelLine b k = false →
      ((∀ p ∈ b.gyden.slots, ¬(p.1 = k ∧ p.2 ≤ b.sysTime)) → exec (.gevSlotSend k) ⟨b, q⟩ = .next ⟨b, q⟩) ∧
      (∀ at', b.gyden.slots = [(k, at')] → at' ≤ b.sysTime → k ∉ b.gyden.queued → ∃ t,
        exec (.gevSlotSend k) ⟨b, q⟩ = .next ⟨t, q⟩ ∧ t.gyden.slots = [] ∧
        (flag b F.GYDEN_CONFIG_EN = true → untilOf t.gyden.driven k = at' + 101) ∧
        (flag b F.GYDEN_CONFIG_EN = false → t.gyden.driven = b.gyden.driven) ∧ (∃ l, (k, at', l) ∈ t.gyden.apply) ∧
        regsOnly { b with gyden := t.gyden } t [F.GYDEN_GEV_TX_COUNT.adr])) ∧
    ((flag b F.GYDEN_CONFIG_EN = false ∨ linkState b ≠ 2) → exec (.gevReceive k) ⟨b, q⟩ = .next ⟨b, q⟩) ∧
    (flag b F.GYDEN_CONFIG_EN = true → linkState b = 2 → gclkGone b = false → exec (.gevReceive k) ⟨b, q⟩ = .next ⟨{ b with
      gyden := awaitSlot b.gyden k ((b.sysTime + 50) / 200 * 200) (b2n (levelLine b k)) }, q⟩) ∧
    (∀ at' lvl, b.gyden.apply = [(k, at', lvl)] →
      (at' + slotLsys b at' ≤ b.sysTime → ∃ t, exec (.gevApply k) ⟨b, q⟩ = .next ⟨t, q⟩ ∧ t.gyden.apply = [] ∧
        (getF t F.GYDEN_GEVLVL_APPLIED).testBit k = true ∧ untilOf t.gyden.upto k = at' + slotLsys b at' + 201 ∧
        (lvl = 0 → t.fires = b.fires ++ [⟨120 + k, 0, at' + slotLsys b at'⟩])) ∧
      (b.sysTime < at' + slotLsys b at' → untilOf b.gyden.upto k = 0 → exec (.gevApply k) ⟨b, q⟩ = .next ⟨b, q⟩)) ∧
    (slaveNode b = true → linkState b ≠ 0 → exec (.epoch err) ⟨b, q⟩ =
      .next ⟨settleJobs (syncClock (epochDelay (epochCommit (heardSync b err)))), q⟩) ∧
    (flag b F.GYDEN_CONFIG_EN = false →
      (b.sysTime % 1000000 ≠ 0 → exec (.epoch err) ⟨b, q⟩ = .next ⟨b, q⟩) ∧
      (b.sysTime % 1000000 = 0 → b.gyden.lastEp ≠ b.sysTime + 1 → exec (.epoch err) ⟨b, q⟩ = .next ⟨syncClock (epochDelay
        (ownEpoch (setGyden b { b.gyden with lastEp := b.sysTime + 1 }))), q⟩)) ∧
    (gclkGone b = false → f.crcOk = false → exec (.gdatFrameReceive f) ⟨b, q⟩ =
      .next ⟨incF (raise b F.GYDEN_STATUS_GDAT_CRC) F.GYDEN_GDAT_CRCERR_COUNT, q⟩) ∧
    (gclkGone b = false → f.crcOk = true → flag b F.GYDEN_CONFIG_EN = true → f.mail = none → f.msg = .none →
      f.safe = false → ∃ u, exec (.gdatFrameReceive f) ⟨b, q⟩ = .next ⟨settleJobs u, q⟩ ∧
        (nodeOf u n).delay = f.delay ∧ (nodeOf u n).mode = f.mode ∧ (nodeOf u n).heard = b.now + 1 ∧
        (getF u F.GYDEN_PRESENT_NODES).testBit n = true ∧
        (getF u F.GYDEN_ARMED_NODES_NODES).testBit n = f.armed ∧ ∀ m, m ≠ n → nodeOf u m = nodeOf b m) ∧
    (flag b F.GYDEN_CONFIG_EN = true → (linkState b = 1 ∨ linkState b = 2) → gclkGone b = false →
      b.gyden.sentIn ≠ getF b F.GYDEN_EPOCHS_COUNT + 1 → ∃ u, exec .gdatFrameSend ⟨b, q⟩ = .next ⟨settleJobs u, q⟩ ∧
        (modeFrame b = false → flag u F.GYDEN_GDAT_STAT_TX_BUSY = false) ∧ (modeFrame b = true →
          flag u F.GYDEN_GDAT_STAT_TX_BUSY = flag b F.GYDEN_GDAT_STAT_TX_BUSY) ∧ u.gyden.sentIn = getF b F.GYDEN_EPOCHS_COUNT + 1 ∧
        u.gyden.reply = 0) ∧
    (flag b F.GYDEN_CONFIG_EN = false → exec .gdatFrameSend ⟨b, q⟩ = .next ⟨b, q⟩) ∧
    (b.now + 1 < (nodeOf b n).heard + 16000000 → exec (.nodeLost n) ⟨b, q⟩ = .next ⟨b, q⟩) ∧
    ((nodeOf b n).flags % 2 = 1 → (nodeOf b n).heard + 16000000 ≤ b.now + 1 → ∃ u,
      exec (.nodeLost n) ⟨b, q⟩ = .next ⟨settleJobs (partyReports u (0x400 + n) (some (5, 0x400 + n))), q⟩ ∧
      flag u F.GYDEN_STATUS_NODE_LOST = true ∧ (getF u F.GYDEN_PRESENT_NODES).testBit n = false ∧
      (nodeOf u n).flags = (nodeOf b n).flags - 1) ∧
    ((slaveNode b = false ∨ linkState b = 0 ∨ gclkGone b = true) → exec .gclkLost ⟨b, q⟩ = .next ⟨b, q⟩) ∧
    (slaveNode b = true → linkState b = 2 → gclkGone b = false → ∃ u, flag u F.GYDEN_STATUS_GCLK_LOST = true ∧
      linkState u = 3 ∧ u.gyden.lost = true ∧
      u.gyden.slots = [] ∧ u.gyden.apply = [] ∧ exec .gclkLost ⟨b, q⟩ =
        .next ⟨settleJobs (if u.clock.refLost = true ∨ getF u F.CLOCK_CTRL_REFSEL ≠ 3 then syncClock u
          else refLoss u false), q⟩)

/-- A PLL_CONFIG while a sequencer or capture is armed completes STATE, one to GCLK off the bus BAD_PARAM; another
selects its reference, puts the domains on backup timing unless the crystal has failed, leaves both sample loops
acquiring and waits at most 100 ms. A PLL_RELOCK without a pending relock completes STATE; another starts its policy
and waits. A GYDEN_CONFIG, of no master's place that is taken and no node number that is heard, that changes nothing
and sets nothing completes OK unchanged off the bus or in UP and waits for UP else; one that takes the package off the
bus leaves LINK 0 and completes; one that puts it on the bus begins to join and waits; one that changes the bus while
armed completes STATE. A GYDEN_MEASURE off UP completes STATE, of a master without ALL OK, of a node with ALL
BAD_PARAM; of a node, and of a master with ALL and other nodes present, it takes 256 round trips and waits, the
master's STEPS counting the nodes. Completion (exec answers this next state, under conditions on state and operands
alone) is stated of: pllConfig, pllRelock, gydenConfig, gydenMeasure. (10_events_gyden.md, 11_clocks.md,
13_command_processor.md) -/
def Obligations.ClockAndBusCommands : Prop :=
  ∀ (b : Block) (q : List Instr) (h : Hdr) (p : List Word), modeOf b ≠ 0 →
    let t := fun op => takePacket b h op
    let out := fun (op : Nat) (r : CmdRes) => Host.Outcome.next (φ := Fault) (ρ := Refusal) (State.mk (finish h op p [] r) q)
    (takes b h 0x68 p (· == 2) [0x13] = true →
      (anyArmed b = true → exec (.pllConfig h p) ⟨b, q⟩ = out 0x68 (.done (t 0x68) Sts.state 0 1 0)) ∧
      (anyArmed b = false → slaveNode b = false → pb p 1 1 0 = 3 →
        exec (.pllConfig h p) ⟨b, q⟩ = out 0x68 (.done (t 0x68) Sts.badParam 0 1 0)) ∧
      (anyArmed b = false → slaveNode b = false → pb p 1 1 0 ≠ 3 → ∃ u,
        exec (.pllConfig h p) ⟨b, q⟩ = out 0x68 (.wait u [] 0 0) ∧ getF u F.CLOCK_CTRL_REFSEL = pb p 1 1 0 ∧
        loopState u 1 = 1 ∧ loopState u 2 = 1 ∧ (b.clock.xtalLost = false → flag u F.CLOCK_STATE_BACKUP = true) ∧
        u.clock.refLost = false ∧
        u.clock.lockBy = u.now + 100000001 ∧ u.seqs = b.seqs ∧ u.units = b.units)) ∧
    (takes b h 0x69 p (· == 2) [0xF3] = true →
      (flag b F.CLOCK_STATE_RELOCK_PEND = false →
        exec (.pllRelock h p) ⟨b, q⟩ = out 0x69 (.done (t 0x69) Sts.state 0 1 0)) ∧
      (flag b F.CLOCK_STATE_RELOCK_PEND = true → pb p 1 1 0 = 0 ∨ stepTooLarge b = false →
        let u := setClock (t 0x69) { b.clock with grp := pb p 1 7 4 }
        exec (.pllRelock h p) ⟨b, q⟩ = out 0x69 (.wait (syncClock (startPolicy u (pb p 1 1 0))) [] 0 0) ∧
        (startPolicy u (pb p 1 1 0)).clock.policy = some (pb p 1 1 0) ∧
        flag (startPolicy u (pb p 1 1 0)) F.CLOCK_STATE_RELOCK_PEND = false)) ∧
    (takes b h 0x70 p (· == 5) [0x3F3, 0xFFFF, 0xFFFFFFFF, 0xFFFFFFFF] = true → pb p 1 8 8 = 0 → pb p 1 9 9 = 0 →
      (pb p 1 1 1 = 0 ∨ b.gyden.syncAt = 0 ∨ b.gyden.syncAt + 1000000 < b.now + 1) →
      (getF b F.GYDEN_PRESENT_NODES).testBit (pb p 1 7 4) = false →
      (pb p 1 0 0 = 0 → flag b F.GYDEN_CONFIG_EN = false →
        decide (pb p 1 1 1 = 1) = flag b F.GYDEN_CONFIG_MASTER → pb p 1 7 4 = ownNode b →
        exec (.gydenConfig h p) ⟨b, q⟩ = out 0x70 (.done (t 0x70) Sts.ok 0 1 0)) ∧
      (decide (pb p 1 0 0 = 1) ≠ flag b F.GYDEN_CONFIG_EN → anyArmed b = true →
        exec (.gydenConfig h p) ⟨b, q⟩ = out 0x70 (.done (t 0x70) Sts.state 0 1 0)) ∧
      (pb p 1 0 0 = 0 → flag b F.GYDEN_CONFIG_EN = true → anyArmed b = false → ∃ u,
        exec (.gydenConfig h p) ⟨b, q⟩ = out 0x70 (.done u Sts.ok 0 1 0) ∧ linkState u = 0 ∧
        flag u F.GYDEN_CONFIG_EN = false ∧ u.gyden.slots = [] ∧ u.gyden.apply = []) ∧
      (pb p 1 0 0 = 1 → flag b F.GYDEN_CONFIG_EN = false → anyArmed b = false → exec (.gydenConfig h p) ⟨b, q⟩ =
        out 0x70 (.wait (joinBus (t 0x70) true (decide (pb p 1 1 1 = 1)) (pb p 1 7 4)) [] 0 0)) ∧
      (pb p 1 0 0 = 1 → flag b F.GYDEN_CONFIG_EN = true →
        decide (pb p 1 1 1 = 1) = flag b F.GYDEN_CONFIG_MASTER → pb p 1 7 4 = ownNode b →
        (linkState b = 2 → exec (.gydenConfig h p) ⟨b, q⟩ = out 0x70 (.done (t 0x70) Sts.ok 0 1 0)) ∧
        (linkState b ≠ 2 → exec (.gydenConfig h p) ⟨b, q⟩ = out 0x70 (.wait (setGyden (t 0x70) { b.gyden with
          joinBy := if pb p 1 1 1 = 1 ∨ b.gyden.joinBy ≠ 0 then b.gyden.joinBy else b.now + 100000001 }) [] 0 0)))) ∧
    (takes b h 0x71 p (· == 2) [3] = true →
      (linkState b ≠ 2 → exec (.gydenMeasure h p) ⟨b, q⟩ = out 0x71 (.done (t 0x71) Sts.state 0 1 0)) ∧
      (linkState b = 2 → masterNode b = true → pb p 1 0 0 = 0 →
        exec (.gydenMeasure h p) ⟨b, q⟩ = out 0x71 (.done (t 0x71) Sts.ok 0 1 0)) ∧
      (linkState b = 2 → masterNode b = false → pb p 1 0 0 = 1 → exec (.gydenMeasure h p) ⟨b, q⟩ =
        out 0x71 (.done (t 0x71) Sts.badParam 0 1 0)) ∧
      (linkState b = 2 → masterNode b = true → pb p 1 0 0 = 1 → otherNodes b = [] → exec (.gydenMeasure h p) ⟨b, q⟩ =
        out 0x71 (.done (t 0x71) Sts.ok 0 0 0)) ∧
      (linkState b = 2 → masterNode b = true → pb p 1 0 0 = 1 → otherNodes b ≠ [] → exec (.gydenMeasure h p) ⟨b, q⟩ =
        out 0x71 (.wait (setGyden (t 0x71) { b.gyden with trips := 256, applyIt := decide (pb p 1 1 1 = 1) })
          [(otherNodes b).length] 0 0)) ∧
      (linkState b = 2 → masterNode b = false → pb p 1 0 0 = 0 → exec (.gydenMeasure h p) ⟨b, q⟩ = out 0x71 (.wait
        (setGyden (t 0x71) { b.gyden with trips := 256, applyIt := decide (pb p 1 1 1 = 1) }) [1] 0 0)))

/-- A reference lost sends locked loops into GLIDE; a second loss changes nothing; its return ends the loss, and in
GLIDE, or on backup with neither loop still in state 5, starts the measurement, whose result, reduced by whole
reference periods, picks the relock policy. A phase jump of a locked loop puts the loops into GLIDE. Steering done,
once nothing remains to steer, leaves the loops to declare lock. A due SYSTIME step moves SYSTIME by δ, counts, and
closes the relock; one too large for an armed machine is refused; one not due does nothing. A loop that may declare
lock is locked, and with both sample loops locked the exported clocks run; one on backup timing has its offset
measured first; SYSPLL's loss of lock is counted and leaves it acquiring, a sample loop's puts the domains on backup
timing where that is enabled, and else takes the package to SAFE. A crystal that fails takes SYSPLL and the DRAM PLL
to state 3 once; a stopped 32.768 kHz oscillator is flagged in both registers and reads stopped. Completion (exec
answers this next state, under conditions on state and operands alone) is stated of: refLost, refReturn, phaseJump,
offsetMeasured, steerDone, systimeStep, lockDeclared, lossOfLock, xtalFail, x32Stop. (11_clocks.md,
17_host_links_startup.md) -/
def Obligations.ClockHappenings : Prop :=
  ∀ (b : Block) (q : List Instr) (o : Bool) (d : Int) (l k : Nat), l < 4 →
    (b.clock.refLost = true → exec (.refLost o) ⟨b, q⟩ = .next ⟨b, q⟩ ∧ exec .phaseJump ⟨b, q⟩ = .next ⟨b, q⟩ ∧
      exec .refReturn ⟨b, q⟩ = .next ⟨setClock b { b.clock with
        refLost := false, measuring := flag b F.CLOCK_STATE_GLIDE || (flag b F.CLOCK_STATE_BACKUP && !b.clock.measuring &&
          loopState b 1 != 5 && loopState b 2 != 5) }, q⟩) ∧
    (b.clock.refLost = false → exec (.refLost o) ⟨b, q⟩ = .next ⟨settleJobs (refLoss b o), q⟩ ∧
      exec .refReturn ⟨b, q⟩ = .next ⟨b, q⟩ ∧
      (loopState b 1 = 2 → b.clock.lolAt ≠ cycleOf b + 1 → exec .phaseJump ⟨b, q⟩ = .next ⟨settleJobs (clockEvent (syncClock
        (let u := abortRelock (enterGlide (incF (raise b F.CLOCK_STATUS_PHASE_JUMP) F.CLOCK_JUMP_COUNT_COUNT))
         setClock u { u.clock with measuring := true }))), q⟩)) ∧
    (loopState b 1 ≠ 5 → loopState b 2 ≠ 5 → flag b F.CLOCK_STATE_GLIDE = false →
      flag (enterGlide b) F.CLOCK_STATE_GLIDE = true ∧ loopState (enterGlide b) 1 = 3 ∧ loopState (enterGlide b) 2 = 3 ∧
      flag (enterGlide b) F.CLOCK_STATE_EXPORT = false ∧ loopState (enterGlide b) 0 = loopState b 0 ∧
      (enterGlide b).clock.policy = none ∧ (enterGlide b).clock.glideAt = b.now + 1) ∧
    (b.clock.measuring = false → exec (.offsetMeasured d) ⟨b, q⟩ = .next ⟨b, q⟩) ∧
    (b.clock.measuring = true →
      let m := (d + refPeriod b / 2) % refPeriod b - refPeriod b / 2
      (slaveNode b = false → exec (.offsetMeasured d) ⟨b, q⟩ = .next ⟨settleJobs (finalDelta b m), q⟩) ∧
      (slaveNode b = true → exec (.offsetMeasured d) ⟨b, q⟩ =
        .next ⟨setClock b { b.clock with measuring := false, modulo := some m }, q⟩)) ∧
    (flag b F.CLOCK_STATE_STEERING = false ∨ steerRem b (slewWord b) ≠ 0 → exec .steerDone ⟨b, q⟩ = .next ⟨b, q⟩) ∧
    (flag b F.CLOCK_STATE_STEERING = true → steerRem b (slewWord b) = 0 → ∃ t, exec .steerDone ⟨b, q⟩ = .next ⟨t, q⟩ ∧
      flag t F.CLOCK_STATE_STEERING = false ∧ (loopState b 1 ≠ 5 → loopState t 1 = 1) ∧
      (loopState b 2 ≠ 5 → loopState t 2 = 1) ∧ t.clock.closing = true ∧
      getF t F.CLOCK_STEER_REM_PS = 0) ∧
    (stepDue b = false → exec .systimeStep ⟨b, q⟩ = .next ⟨b, q⟩) ∧
    (stepDue b = true → stepTooLarge b = true → exec .systimeStep ⟨b, q⟩ = .next ⟨settleJobs (stepRefused b), q⟩) ∧
    (stepDue b = true → stepTooLarge b = false → ∃ t, exec .systimeStep ⟨b, q⟩ = .next ⟨t, q⟩ ∧ t.sysTime = (moveTime b b.clock.delta).sysTime ∧
      flag t F.CLOCK_STATUS_STEP = true ∧ t.clock.stepAt = 0 ∧ t.clock.closing = true ∧ t.now = b.now ∧
      (b.sysTime < t.sysTime → t.clock.skipFrom = b.sysTime ∧ t.clock.skipTo = t.sysTime)) ∧
    (mayLock b l k = false → exec (.lockDeclared ⟨l, k⟩) ⟨b, q⟩ = .next ⟨b, q⟩) ∧
    (mayLock b l k = true → (l = 0 ∨ l = 3) →
      exec (.lockDeclared ⟨l, k⟩) ⟨b, q⟩ = .next ⟨settleJobs (syncClock (setLoop b l 2)), q⟩ ∧
      loopState (setLoop b l 2) l = 2 ∧ flag (setLoop b l 2) (lpF l F.CLOCK_L0_LSTAT_LOCKED) = true) ∧
    (mayLock b l k = true → (l = 1 ∨ l = 2) →
      (loopState b l = 5 → exec (.lockDeclared ⟨l, k⟩) ⟨b, q⟩ = .next ⟨setClock (setLoop b l 1) { (setLoop b l 1).clock with
        measuring := true, policy := some 3 }, q⟩) ∧
      (loopState b l ≠ 5 → ∃ u, exec (.lockDeclared ⟨l, k⟩) ⟨b, q⟩ = .next ⟨settleJobs u, q⟩ ∧ loopState u l = 2 ∧
        (bothLocked (setLoop b l 2) = true → flag u F.CLOCK_STATE_EXPORT = true ∧ u.clock.policy = none))) ∧
    ((loopState b l = 0 ∨ loopState b l = 5 ∨ (o = false ∧ loopState b l ≠ 1)) → exec (.lossOfLock ⟨l, o⟩) ⟨b, q⟩ = .next ⟨b, q⟩) ∧
    (o = true → loopState b l ≠ 0 → loopState b l ≠ 5 →
      let x := incF (raise b F.CLOCK_STATUS_LOL) (lpF l F.CLOCK_L0_LOLCNT_COUNT)
      let u := setClock x { b.clock with lolAt := cycleOf b + 1 }
      ((l = 0 ∨ l = 3) → exec (.lossOfLock ⟨l, o⟩) ⟨b, q⟩ = .next ⟨settleJobs (clockEvent (syncClock (setLoop u l 1))), q⟩) ∧
      ((l = 1 ∨ l = 2) → flag b F.CLOCK_CTRL_BACKUP_EN = true → b.clock.xtalLost = false →
        exec (.lossOfLock ⟨l, o⟩) ⟨b, q⟩ = .next ⟨settleJobs (clockEvent (syncClock (setLoop (enterBackup u) l 5))), q⟩) ∧
      ((l = 1 ∨ l = 2) → flag b F.CLOCK_CTRL_BACKUP_EN = false ∨ b.clock.xtalLost = true →
        let v := setLoop u l 1
        exec (.lossOfLock ⟨l, o⟩) ⟨b, q⟩ = .next ⟨settleJobs (clockEvent (syncClock (packageSafe
          (if flag v F.CLOCK_STATE_GLIDE = true ∧ loopState v 1 ≠ 3 ∧ loopState v 2 ≠ 3 then endGlide v else v) 8))), q⟩)) ∧
    (b.clock.xtalLost = true → exec .xtalFail ⟨b, q⟩ = .next ⟨b, q⟩) ∧
    (b.clock.xtalLost = false → ∃ u, exec .xtalFail ⟨b, q⟩ = .next ⟨settleJobs (clockEvent u), q⟩ ∧
      loopState u 0 = 3 ∧ loopState u 3 = 3 ∧ u.clock.xtalLost = true ∧ u.units = b.units ∧ u.seqs = b.seqs ∧
      flag u F.CLOCK_STATUS_XTAL_FAIL = true) ∧
    (∃ t, exec .x32Stop ⟨b, q⟩ = .next ⟨t, q⟩ ∧ flag t F.AON_STATUS_X32_STOP = true ∧
      flag t F.CLOCK_STATUS_X32_FAIL = true ∧ flag t F.CLOCK_X32_STAT_RUN = false ∧
      regsOnly b t [F.AON_STATUS_X32_STOP.adr, F.CLOCK_STATUS_X32_FAIL.adr, F.CLOCK_X32_STAT_RUN.adr])

/-- A DRAM_TRAIN without FORCE while a capture is armed completes STATE; one that PAC grants begins a blackout with
DSTATE 1 and goes on. A DRAM_FREQ to the present FSP completes OK, to FSP1 issues every owed refresh and begins its
blackout with DSTATE 3. A DRAM_RESUME of a stack that is not frozen completes STATE; of a frozen one whose run decodes
returns it to service with RESULT 1; with words that do not and no leave to zero them it completes DRAM_FROZEN, with
leave it serves again with those words zeroed and RESULT their number. An uncorrectable error on a served stack with
nothing in course captures its block, requester and words and freezes the stack, and the package owes a SAFE; on a
stack not served, or with ECC off, it changes nothing. A dependent group whose buffers are empty stops with cause 6
and its units go to FAULT. A frozen stack that owes a SAFE and on which no dependent group plays takes the package to
SAFE with cause 5. A group without frames in a blackout holds its content, or faults, as its policy says; before 32 µs
nothing happens. Completion (exec answers this next state, under conditions on state and operands alone) is stated of:
dramTrain, dramFreq, dramResume, dramFreeze, freezeBuffersEmpty, blackoutUnderrun. (12_dram_controller.md,
13_command_processor.md, 16_modes_power_faults.md) -/
def Obligations.DramCommandsAndErrors : Prop :=
  ∀ (b : Block) (q : List Instr) (h : Hdr) (p : List Word) (o0 o1 : TrainOutcome) (bad : List Nat) (e : UncorrectableError)
    (n : Nat), n < 16 → errorOk e = true → quiet b = true → b.mem.errs = [] →
    let t := fun op => takePacket b h op
    let out := fun (op : Nat) (r : CmdRes) => Host.Outcome.next (φ := Fault) (ρ := Refusal) (State.mk (finish h op p [] r) q)
    let outR := fun (op : Nat) (r : CmdRes) =>
      Host.Outcome.next (φ := Fault) (ρ := Refusal) (State.mk (afterReads (finish h op p [] r)) q)
    (modeOf b ≠ 0 → takes b h 0x60 p (· == 2) [0x33] = true → pb p 1 1 1 = 0 →
      let r : PacReq := ⟨1, 110, [(6, 300)], .cmd Op.dramTrain, h.ring, (t 0x60).cmd.cur, b.now + toCmd (t 0x60)⟩
      (dramBad b = false → flag b F.DRAMC_STATE_BUSY = false →
        (∀ j ∈ b.cmd.jobs, j.op ≠ Op.dramTrain ∧ j.op ≠ Op.dramFreq) →
        (pb p 1 0 0 = 0 → anyCapArmed b = true →
          exec (.dramTrain h p o0 o1) ⟨b, q⟩ = out 0x60 (.done (t 0x60) Sts.state 0 1 0)) ∧
        ((pb p 1 0 0 = 1 ∨ (anyDependent b = false ∧ anyCapArmed b = false)) → pacAnswer (t 0x60) r false = .grant →
          let u := beginBlackout (pacGrant (t 0x60) r) 1
          exec (.dramTrain h p o0 o1) ⟨b, q⟩ =
            out 0x60 (.more u 0 0 (1 :: (outcomeNats o0 ++ outcomeNats o1 ++ pendingMasks b))) ∧
          getF u F.DRAMC_STATE_DSTATE = 1 ∧ u.dramc.blackout = some b.now))) ∧
    (modeOf b ≠ 0 → takes b h 0x61 p (· == 2) [3] = true → dramBad b = false → flag b F.DRAMC_STATE_BUSY = false →
      (∀ j ∈ b.cmd.jobs, j.op ≠ Op.dramTrain ∧ j.op ≠ Op.dramFreq) →
      (pb p 1 0 0 = getF b F.DRAMC_STATE_FSP → exec (.dramFreq h p) ⟨b, q⟩ = out 0x61 (.done (t 0x61) Sts.ok 0 1 0)) ∧
      (pb p 1 0 0 = 1 → getF b F.DRAMC_STATE_FSP = 0 → anyDependent b = false → anyCapArmed b = false →
        exec (.dramFreq h p) ⟨b, q⟩ = out 0x61 (.more (beginFreq (t 0x61)) 0 0 [1]))) ∧
    (modeOf b ≠ 0 → takes b h 0x62 p (· == 2) [1] = true →
      (getF b F.DRAMC_STATE_DSTATE ≠ 4 →
        exec (.dramResume h p bad false) ⟨b, q⟩ = outR 0x62 (.done (t 0x62) Sts.state 0 1 0)) ∧
      (getF b F.DRAMC_STATE_DSTATE = 4 → (∀ w < 56, w ∉ bad) → ∃ u,
        exec (.dramResume h p bad false) ⟨b, q⟩ = outR 0x62 (.done u Sts.ok 0 1 0) ∧ getF u F.DRAMC_STATE_DSTATE = 2 ∧
        getF u F.DRAMC_RESUME_STAT_RESULT = 1 ∧ getF u F.DRAMC_RESUME_STAT_WORDS = 0 ∧ u.mem = b.mem) ∧
      (getF b F.DRAMC_STATE_DSTATE = 4 → (∃ w < 56, w ∈ bad) → pb p 1 0 0 = 0 →
        exec (.dramResume h p bad false) ⟨b, q⟩ = outR 0x62 (.done (t 0x62) Sts.dramFrozen 0 1 0)) ∧
      (getF b F.DRAMC_STATE_DSTATE = 4 → (∃ w < 56, w ∈ bad) → pb p 1 0 0 = 1 → flag b F.DRAMC_FRZ_SEG_SYSAREA = false → ∃ u,
        exec (.dramResume h p bad false) ⟨b, q⟩ = outR 0x62 (.done (resumeMoves u) Sts.ok 0 1
          ((List.range 56).filter (fun i => bad.contains i)).length) ∧ getF u F.DRAMC_STATE_DSTATE = 2 ∧
        getF u F.DRAMC_RESUME_STAT_RESULT = 2 ∧ getF u F.DRAMC_FRZ_PADDR_BLOCK / 128 ∈ u.sys.retire)) ∧
    (dramRuns b = false → exec (.dramFreeze e) ⟨b, q⟩ = .next ⟨b, q⟩) ∧
    (flag b F.DRAMC_CTRL_ECC_EN = false → exec (.dramFreeze e) ⟨b, q⟩ = .next ⟨b, q⟩) ∧
    (dramRuns b = true → flag b F.DRAMC_CTRL_ECC_EN = true → b.mem.move = none → (∀ c < 8, (lift b c).st = 0) →
      (∀ k < 4, capArmed b k = false) → b.cmd.jobs = [] →
      ∃ u, exec (.dramFreeze e) ⟨b, q⟩ = .next ⟨settleJobs u, q⟩ ∧ getF u F.DRAMC_STATE_DSTATE = 4 ∧
        flag u F.DRAMC_STATUS_UE_FREEZE = true ∧ getF u F.DRAMC_FRZ_PADDR_BLOCK = e.block ∧
        getF u F.DRAMC_FRZ_STAT_REQ = e.req ∧ getF u F.DRAMC_FRZ_STAT_SUB = e.sub ∧ getF u F.DRAMC_FRZ_STAT_CMD = e.cmd ∧
        getF u F.DRAMC_FRZ_STAT_WORDS = e.words ∧ u.dramc.frozenAt = b.now ∧ u.dramc.safeDue = true ∧ u.mem = b.mem ∧
        u.units = b.units ∧ u.seqs = b.seqs) ∧
    (∀ s : Block, s.dramc.safeDue = true → getF s F.DRAMC_STATE_DSTATE = 4 → (∀ k < 16, stillPlays s k = false) →
      relockGate (settleChange s) = s → s.sys.retire = [] →
      settleGates s = packageSafe { s with dramc := { s.dramc with safeDue := false } } 5) ∧
    (b.now < b.dramc.frozenAt + 32000 → exec (.freezeBuffersEmpty n) ⟨b, q⟩ = .next ⟨b, q⟩) ∧
    (getF b F.DRAMC_STATE_DSTATE = 4 → stillPlays b n = true → b.dramc.frozenAt + 32000 ≤ b.now →
      (group b n).lcmask = 0 → exec (.freezeBuffersEmpty n) ⟨b, q⟩ = .next ⟨settleJobs
        (forEach (bitList (group b n).mask 64) (seqEnd b n 4 6 0) (sendFault false b.sysTime)), q⟩) ∧
    (b.dramc.blackout = none → exec (.blackoutUnderrun n) ⟨b, q⟩ = .next ⟨b, q⟩) ∧
    (∀ a, b.dramc.blackout = some a → seqDue b n = true → (seqr b n).mode = 1 → cachedFor b n (seqr b n).seg = false →
      (seqr b n).frame ≠ (seqr b n).s + (seqr b n).len → (seqr b n).cut ≠ some (seqr b n).frame → blackoutReplay b n = none →
      (b.now < a + 32000 → exec (.blackoutUnderrun n) ⟨b, q⟩ = .next ⟨b, q⟩) ∧
      (a + 32000 ≤ b.now → getF b (qF n F.SEQ_CTRL_UPOL) ≠ 2 → ∃ u, exec (.blackoutUnderrun n) ⟨b, q⟩ = .next ⟨u, q⟩ ∧
        seqr u n = { seqr b n with
          mode := 5, held := 1, heldAt := (seqr b n).frame, holdNext := (seqr b n).frame + 64 } ∧
        flag u (qF n F.SEQ_STATUS_UNDERRUN) = true ∧ flag u F.DRAMC_STATUS_BLACKOUT = true) ∧
      (a + 32000 ≤ b.now → getF b (qF n F.SEQ_CTRL_UPOL) = 2 → exec (.blackoutUnderrun n) ⟨b, q⟩ =
        .next ⟨afterReads (settleJobs (underrunFault (seqEnd (raise (raise b (qF n F.SEQ_STATUS_UNDERRUN))
          F.DRAMC_STATUS_BLACKOUT) n 4 4 0) n (seqr b n).frame)), q⟩))

/-- A refresh in a burst is owed up to MAXPOST and inserted, counted and flagged beyond it; one outside a burst is
paid. An activation counts in its die's window and in its bank's rolling count, which issues and counts an RFM at the
limit; with RH_EN its row's count is followed too, and one that reaches the threshold is recorded and refreshed
around, a real-time requester reported and another throttled; of no limit the happening stops. A new window, 32 ms
after the last, ends every throttle. A scrub read of a run without errors moves the run on by one and counts a pass at
the wrap, and with SCRUB_EN at 0 does nothing. A die's taps follow its drift by at most one at each interval, and a
drift beyond LIMIT is flagged. MR4_READ shows the four codes. A corrected error is flagged, counted by block and die,
and is a PATROL event of class 0 that counts as recovered; so is one of an SRAM block and of a word of the command
window; a sine word beyond correction is noted. Completion (exec answers this next state, under conditions on state
and operands alone) is stated of: refresh, rfm, rhWindowReset, scrubRead, driftTrack, mr4Read, eccCorrection.
(12_dram_controller.md) -/
def Obligations.DramUpkeep : Prop :=
  ∀ (b : Block) (q : List Instr) (die bank row req sub lim count block : Nat) (drift : Int) (codes : List Nat) (hot : Bool),
    die < 4 → bank < 16 → row < 262144 → requesterOk req sub = true → block < dramBlocks → quiet b = true →
    let k := 16 * die + bank
    let raa := fun (s : Block) => Tbl.get (fun _ => 0) s.dramc.raa k
    let rows := fun (s : Block) => Tbl.get (fun _ => ([] : List (Nat × Nat))) s.dramc.rows k
    let owed := fun (s : Block) => Tbl.get (fun _ => 0) s.dramc.owed die
    (∃ t, exec (.refresh die bank false) ⟨b, q⟩ = .next ⟨t, q⟩ ∧ owed t = owed b - 1 ∧ t.regs = b.regs) ∧
    (owed b < maxPost b → ∃ t, exec (.refresh die bank true) ⟨b, q⟩ = .next ⟨t, q⟩ ∧ owed t = owed b + 1 ∧
      getF t F.DRAMC_REF_STAT_INSERTED = getF b F.DRAMC_REF_STAT_INSERTED ∧
      owed b + 1 ≤ getF t F.DRAMC_REF_STAT_OWED_MAX) ∧
    (maxPost b ≤ owed b → ∃ t, exec (.refresh die bank true) ⟨b, q⟩ = .next ⟨t, q⟩ ∧ owed t = owed b ∧
      flag t F.DRAMC_STATUS_REF_INSERT = true ∧
      getF t F.DRAMC_REF_STAT_INSERTED = (getF b F.DRAMC_REF_STAT_INSERTED + 1) % 65536) ∧
    (∀ l : List Activation, exec (.rfm die bank row req sub ⟨l, 0⟩) ⟨b, q⟩ = .fault .noSuchObject) ∧
    (1 ≤ lim → ∃ t, exec (.rfm die bank row req sub ⟨[], lim⟩) ⟨b, q⟩ = .next ⟨t, q⟩ ∧
      getF t (dieQ die F.DRAMC_ACT_WIN0_COUNT) = (getF b (dieQ die F.DRAMC_ACT_WIN0_COUNT) + 1) % 2 ^ 32 ∧ t.mem = b.mem ∧
      t.units = b.units ∧
      (flag b F.DRAMC_CTRL_RH_EN = false → t.dramc.rows = b.dramc.rows ∧
        (raa b + 1 < lim → raa t = raa b + 1 ∧
          getF t (dieQ die F.DRAMC_RFM_CNT0_COUNT) = getF b (dieQ die F.DRAMC_RFM_CNT0_COUNT)) ∧
        (lim ≤ raa b + 1 → raa t = raa b + 1 - lim ∧
          getF t (dieQ die F.DRAMC_RFM_CNT0_COUNT) = (getF b (dieQ die F.DRAMC_RFM_CNT0_COUNT) + 1) % 2 ^ 32 ∧
          getF t F.DRAMC_RH_STAT_RAA = (getF b F.DRAMC_RH_STAT_RAA + 1) % 65536)) ∧
      (flag b F.DRAMC_CTRL_RH_EN = true →
        ((trackRow (rows b) row).2 < max 256 (getF b F.DRAMC_RH_CFG_THRESH) → rows t = (trackRow (rows b) row).1 ∧
          flag t F.DRAMC_STATUS_RH_RFM = flag b F.DRAMC_STATUS_RH_RFM) ∧
        (max 256 (getF b F.DRAMC_RH_CFG_THRESH) ≤ (trackRow (rows b) row).2 →
          getF t F.DRAMC_RH_LAST_ROW = row ∧ getF t F.DRAMC_RH_LAST_BANK = bank ∧ getF t F.DRAMC_RH_LAST_REQ = req ∧
          flag t F.DRAMC_STATUS_RH_RFM = true ∧ (∀ y ∈ rows t, y.1 = row → y.2 = 0) ∧
          (req < 5 → flag t F.DRAMC_STATUS_RH_RT = true ∧ t.dramc.throttle = b.dramc.throttle) ∧
          (5 ≤ req → (req, sub, k) ∈ t.dramc.throttle)))) ∧
    (workDue b 5 32000000 = false → exec .rhWindowReset ⟨b, q⟩ = .next ⟨b, q⟩) ∧
    (workDue b 5 32000000 = true → ∃ t, exec .rhWindowReset ⟨b, q⟩ = .next ⟨t, q⟩ ∧ t.dramc.rows = [] ∧
      t.dramc.throttle = [] ∧ getF t F.DRAMC_RH_THROTTLE_ACTIVE = 0 ∧
      getF t (dieQ die F.DRAMC_ACT_WIN0_COUNT) = 0 ∧ t.mem = b.mem) ∧
    (flag b F.DRAMC_CTRL_SCRUB_EN = false → exec .scrubRead ⟨b, q⟩ = .next ⟨b, q⟩) ∧
    (flag b F.DRAMC_CTRL_SCRUB_EN = true → dramRuns b = true → b.mem.errs = [] → (getF b F.DRAMC_SCRUB_STAT_RUN ≠ 0 ∨
      workDue b 6 (getF b F.DRAMC_SCRUB_CFG_HOURS * 3600000000000) = true) → ∃ t, exec .scrubRead ⟨b, q⟩ = .next ⟨t, q⟩ ∧
      getF t F.DRAMC_SCRUB_STAT_RUN = (getF b F.DRAMC_SCRUB_STAT_RUN + 1) % 2 ^ 26 ∧
      getF t F.DRAMC_SCRUB_STAT_PASSES = (if getF b F.DRAMC_SCRUB_STAT_RUN + 1 = 2 ^ 26 then
        (getF b F.DRAMC_SCRUB_STAT_PASSES + 1) % 64 else getF b F.DRAMC_SCRUB_STAT_PASSES)) ∧
    (flag b F.DRAMC_CTRL_OSC_EN = true → dramRuns b = true →
      workDue b die (getF b F.DRAMC_OSC_CFG_INTERVAL * 1000000) = true → ∃ t,
      exec (.driftTrack die count drift) ⟨b, q⟩ = .next ⟨t, q⟩ ∧ driftOf t die = drift ∧
      driftOf t (4 + die) ≤ driftOf b (4 + die) + 1 ∧ driftOf b (4 + die) - 1 ≤ driftOf t (4 + die) ∧
      (getF b F.DRAMC_OSC_CFG_LIMIT < drift.natAbs → flag t F.DRAMC_STATUS_DRIFT = true)) ∧
    (flag b F.DRAMC_CTRL_OSC_EN = false ∨ dramRuns b = false ∨
      workDue b die (getF b F.DRAMC_OSC_CFG_INTERVAL * 1000000) = false → exec (.driftTrack die count drift) ⟨b, q⟩ = .next ⟨b, q⟩) ∧
    (workDue b 4 16000000 = false → exec (.mr4Read codes hot) ⟨b, q⟩ = .next ⟨b, q⟩) ∧
    (workDue b 4 16000000 = true → ∃ t, exec (.mr4Read codes hot) ⟨b, q⟩ = .next ⟨t, q⟩ ∧
      getF t ⟨R.DRAMC_TEMP, 4 * die + 3, 4 * die⟩ = codes.getD die 0 % 16 ∧
      (hot = true → flag t F.DRAMC_STATUS_TEMP_HIGH = true) ∧ (hot = false → regsOnly { b with dramc := t.dramc } t [R.DRAMC_TEMP])) ∧
    (dramRuns b = false ∨ flag b F.DRAMC_CTRL_ECC_EN = false → exec (.eccCorrection (.dram block)) ⟨b, q⟩ = .next ⟨b, q⟩) ∧
    (flag b F.DRAMC_CTRL_ECC_EN = true → dramRuns b = true → ∃ u, exec (.eccCorrection (.dram block)) ⟨b, q⟩ =
        .next ⟨settleJobs (recovered (patrolEvent u 0 (block / 128))), q⟩ ∧ flag u F.DRAMC_STATUS_CE = true ∧
      getF u F.DRAMC_ECC_CE_ADDR_BLOCK = block ∧
      getF u (dieQ (blockDie b block) F.DRAMC_CE_CNT0_COUNT) =
        (getF b (dieQ (blockDie b block) F.DRAMC_CE_CNT0_COUNT) + 1) % 2 ^ (F.DRAMC_CE_CNT0_COUNT.hi + 1 - F.DRAMC_CE_CNT0_COUNT.lo) ∧
      (block * 8, 1) ∉ u.mem.errs) ∧
    (∀ n, n < 2147483648 → exec (.eccCorrection (.sram n)) ⟨b, q⟩ =
      .next ⟨settleJobs (recovered (patrolEvent b 0 (0x80000000 + n))), q⟩) ∧
    (∀ n, n < 16384 → exec (.eccCorrection (.window n)) ⟨b, q⟩ =
      .next ⟨settleJobs (recovered (patrolEvent b 0 (0x40000 + 4 * n))), q⟩) ∧
    (∀ d j i n, d < 2 → j < 2 → i < 16384 → n < 2147483648 → sineUe b d j i = none →
      exec (.eccCorrection (.sineWord d j i n)) ⟨b, q⟩ = .next ⟨{ b with tableUe := b.tableUe ++ [(d, j, i, n)] }, q⟩)

/-- A CAL_RUN outside CALIBRATE completes STATE, one with bad words BAD_PARAM, one granted enters its first phase and
goes on. A measured unit that is not on the path changes nothing; one that is has its measured slots filled in;
passing the checks of Table 15-4 it joins the good ones with its figures, failing one it is rejected with the code and
its bank restored. A CAL_COMMIT of a unit without a result completes STATE, one granted goes on with its units. A
CAL_DISCARD drops the named results. An AUDIT_READ of one stored record copies its 64 bytes and returns the oldest
number; of one not stored it completes PARTIAL. An NVM_READ of up to 4 KiB copies the bytes and returns their CRC-32;
misaligned it completes BAD_PARAM. An NVM_WRITE of a sound unit record queues its change and goes on; one that fails
its check completes BAD_PARAM. A MICROCODE_RELOAD outside STANDBY completes STATE, with another command in progress
BUSY, and else loads or refuses the image. After 10 ms idle the NOR enters deep power-down where enabled; an operation
ends only where one is in progress; a program can only clear bits, and an erase sets its block. Completion (exec
answers this next state, under conditions on state and operands alone) is stated of: calRun, calUnitFinished,
calCommit, calDiscard, auditRead, nvmRead, nvmWrite, microcodeReload, nvmOperationEnd, nvmDpdEntry.
(13_command_processor.md, 15_calibration.md, 17_host_links_startup.md) -/
def Obligations.CalibrationAndNor : Prop :=
  ∀ (b : Block) (q : List Instr) (h : Hdr) (p d : List Word) (x : Standards) (s1 s2 ok : Bool) (u : Nat) (y : UnitResult),
    u < 104 →
    let t := fun op => takePacket b h op
    let out := fun (op : Nat) (d : List Word) (r : CmdRes) =>
      Host.Outcome.next (φ := Fault) (ρ := Refusal) (State.mk (finish h op p d r) q)
    (takes b h 0x50 p (· == 11) [0xFFFFFFFF, 0xFFFFFFFF, 0xFFFFFFFF, 0x1FF73FFF, 0xFFFFFFFF, 0xFFFFFFFF, 0xFFFFFFFF, 0xFFFFFFFF,
        0xFFFFFFFF, 0xFFFFFFFF] = true →
      (modeOf b ≠ 3 → exec (.calRun h p x) ⟨b, q⟩ = out 0x50 [] (.done (t 0x50) Sts.state 0 1 0)) ∧
      (modeOf b = 3 → runParamBad p = true → exec (.calRun h p x) ⟨b, q⟩ = out 0x50 [] (.done (t 0x50) Sts.badParam 0 1 0)) ∧
      (modeOf b = 3 → runParamBad p = false → b.cal.run = none →
        (∀ j ∈ b.cmd.jobs, j.op ≠ Op.calRun ∧ j.op ≠ Op.calCommit) → (∀ v ∈ runUnits p, runUnitBad (t 0x50) v = false) →
        pacAnswer (t 0x50) (runRequest (t 0x50) h p) false = .grant → ∃ w,
        exec (.calRun h p x) ⟨b, q⟩ = out 0x50 [] (.more w 0 0 (2 :: standardNats x)) ∧
        getF w F.CAL_STATE_PHASE = 1 ∧ w.cal.run = some { p := p } ∧ w.tables = b.tables)) ∧
    (b.cal.run = none → exec (.calUnitFinished u y) ⟨b, q⟩ = .next ⟨b, q⟩) ∧
    (∀ r j o, b.cal.run = some r → calJob b = some j → r.busy = [(u, o)] → modeOf b = 3 → (u < 64 → ostate b u = 0) →
      (u < 96 → r.left.getD (listOf u) [] ≠ []) →
      (calVerdict b r.p u y = none → exec (.calUnitFinished u y) ⟨b, q⟩ = .next ⟨settleJobs (calSettle
        (setRun (calLeave (incF (putMeasured r.p b u y) F.CAL_STATE_DONE) (u, o))
          (some { r with busy := [], good := r.good ++ [(u, calFigures b r.p u y)] })) j), q⟩) ∧
      (∀ e, calVerdict b r.p u y = some e → exec (.calUnitFinished u y) ⟨b, q⟩ = .next ⟨settleJobs (calSettle
        (setRun (calLeave (incF (calReject (restoreBank (putMeasured r.p b u y) u) u e.1 e.2) F.CAL_STATE_DONE) (u, o))
          (some { r with busy := [], fails := r.fails ++ [(u, e.1, e.2)] })) j), q⟩)) ∧
    (takes b h 0x51 p (· == 5) [0xFFFFFFFF, 0xFFFFFFFF, 0xFFFFFFFF, 0x3FF] = true → (modeOf b = 1 ∨ modeOf b = 2 ∨ modeOf b = 3) →
      pb p 4 9 9 = 0 →
      ((∃ v ∈ commitUnits b p, calPend b v = none) →
        exec (.calCommit h p) ⟨b, q⟩ = out 0x51 [] (.done (t 0x51) Sts.state 0 1 0)) ∧
      ((∀ v ∈ commitUnits b p, calPend b v ≠ none) → (∀ j ∈ b.cmd.jobs, j.op ≠ Op.calCommit) →
        let r : PacReq :=
          ⟨1, (commitUnits b p).headD 110, [(6, 100)], .cmd Op.calCommit, h.ring, (t 0x51).cmd.cur, b.now + toCmd (t 0x51)⟩
        pacAnswer (t 0x51) r false = .grant → exec (.calCommit h p) ⟨b, q⟩ =
          out 0x51 [] (.more (setF (pacGrant (t 0x51) r) F.CAL_STATE_PHASE 3) 0 0 (3 :: commitUnits b p)))) ∧
    (takes b h 0x52 p (· == 5) [0xFFFFFFFF, 0xFFFFFFFF, 0xFFFFFFFF, 0x1FF] = true → modeOf b ≠ 0 →
      (∀ j ∈ b.cmd.jobs, j.op ≠ Op.calCommit) → ∃ w,
      exec (.calDiscard h p) ⟨b, q⟩ = out 0x52 [] (.done w Sts.ok 0 1 0) ∧ (∀ v ∈ commitUnits b p, calPend w v = none) ∧
      (∀ v, v ∉ commitUnits b p → calPend w v = calPend b v) ∧ w.tables = b.tables ∧ w.nvm = b.nvm) ∧
    (takes b h 0x5A p (· == 6) [0xFFFFFFFF, 0xFFFFFFFF, 0xFFFFFFFF, 0xFFFFFFFF, 0xFFFFFFFF] = true → modeOf b ≠ 0 → pw p 3 = 1 →
      destOk (t 0x5A) h (pw64 p 4) 64 = true →
      (auditOldest b ≤ pw64 p 1 → pw64 p 1 < auditNext b → exec (.auditRead h p) ⟨b, q⟩ = out 0x5A [] (.done
        (toHost (t 0x5A) h (pw64 p 4) (nvmBytes b (auditAddr (pw64 p 1)) 64)) Sts.ok 0 1 (auditOldest b % 2 ^ 32))) ∧
      ((pw64 p 1 < auditOldest b ∨ auditNext b ≤ pw64 p 1) → exec (.auditRead h p) ⟨b, q⟩ =
        out 0x5A [] (.done (t 0x5A) Sts.partially 0 0 (auditOldest b % 2 ^ 32)))) ∧
    (takes b h 0x58 p (· == 5) [0x3FFFFFF, 0x1FFFF, 0xFFFFFFFF, 0xFFFFFFFF] = true →
      (pb p 1 25 0 % 4 ≠ 0 → exec (.nvmRead h p) ⟨b, q⟩ = out 0x58 [] (.done (t 0x58) Sts.badParam 0 1 0)) ∧
      (pb p 1 25 0 % 4 = 0 → pb p 2 16 0 % 4 = 0 → 1 ≤ pb p 2 16 0 → pb p 2 16 0 ≤ 4096 →
        pb p 1 25 0 + pb p 2 16 0 ≤ 2 ^ 26 → destOk (t 0x58) h (pw64 p 3) (pb p 2 16 0) = true → ∃ w,
        exec (.nvmRead h p) ⟨b, q⟩ = out 0x58 [] (.done
          (toHost w h (pw64 p 3) (nvmBytes b (pb p 1 25 0) (pb p 2 16 0))) Sts.ok 0 1
          (crc32 (nvmBytes b (pb p 1 25 0) (pb p 2 16 0)))) ∧ w.cmd = (t 0x58).cmd ∧ w.nvm.bytes = b.nvm.bytes)) ∧
    (takes b h 0x59 p (fun k => decide (6 ≤ k)) [0x33F0F] = true → modeOf b ≠ 0 → pb p 1 3 0 = 1 → pb p 1 17 16 = 0 →
      pw p 2 = 0 → pw p 3 = 32 → p.length = 13 →
      (unitRecOk (pb p 1 13 8) (wordsBytes (p.drop 5)) = false →
        exec (.nvmWrite h p d ok) ⟨b, q⟩ = out 0x59 d (.done (t 0x59) Sts.badParam 0 1 0)) ∧
      (unitRecOk (pb p 1 13 8) (wordsBytes (p.drop 5)) = true → exec (.nvmWrite h p d ok) ⟨b, q⟩ = out 0x59 d (.more
        (nvmKick (nvmQueue (t 0x59) (writeTx (t 0x59) h p (wordsBytes (p.drop 5))))) 0 0 [0]))) ∧
    (takes b h 0x7E p (· == 2) [0x111] = true → getF b F.HOSTCMD_STATE_UE_STATE ≠ 4 →
      (modeOf b ≠ 1 → exec (.microcodeReload h p s1 s2) ⟨b, q⟩ = out 0x7E [] (.done (t 0x7E) Sts.state 0 1 0)) ∧
      (reloadForbidden b = false → b.cmd.jobs ≠ [] →
        exec (.microcodeReload h p s1 s2) ⟨b, q⟩ = out 0x7E [] (.done (t 0x7E) Sts.busy 0 1 0)) ∧
      (reloadForbidden b = false → b.cmd.jobs = [] → exec (.microcodeReload h p s1 s2) ⟨b, q⟩ = out 0x7E []
        (if imageOk (t 0x7E) (pb p 1 0 0) s1 = true then reloadDone h p (t 0x7E) else reloadFailed h p s2 (t 0x7E)))) ∧
    (flag b F.NVM_STATE_BUSY = false → exec (.nvmOperationEnd ok) ⟨b, q⟩ = .next ⟨b, q⟩ ∧
      (flag b F.NVM_CTRL_DPD_EN = true → b.nvm.idle + 10000000 ≤ b.now →
        exec .nvmDpdEntry ⟨b, q⟩ = .next ⟨setF b F.NVM_STATE_DPD 1, q⟩)) ∧
    (flag b F.NVM_STATE_BUSY = true → exec .nvmDpdEntry ⟨b, q⟩ = .next ⟨b, q⟩ ∧
      exec (.nvmOperationEnd ok) ⟨b, q⟩ = .next ⟨settleJobs (nvmOpEnd b ok), q⟩) ∧
    (∀ (o : NvmOp) (a : Nat), let r := fun (s : Block) => Tbl.get (fun _ => (255 : Byte)) s.nvm.bytes a
      (o.kind = 2 → (a < o.addr ∨ o.addr + o.data.length ≤ a → r (nvmEffect b o) = r b) ∧
        (o.addr ≤ a → a < o.addr + o.data.length → r (nvmEffect b o) = r b &&& o.data.getD (a - o.addr) 0)) ∧
      (o.kind = 4 → r (nvmEffect b o) = (if o.addr ≤ a ∧ a < o.addr + 65536 then 255 else r b)))

/-- Supplies that become valid start a package up that is neither powered nor held, and no other: with the crystal and
the NVM working, an image that passes its check and DRAM that trains it ends in STANDBY with every step done, with no
such image in BOOT after step 2. RST_N low holds the package in reset with cause 1 and keeps the always-on registers;
released, it starts up with the cause held where power is present. A dip of VCORE or the analogue rails takes power
away, of another rail nothing. VAON's first application sets the always-on registers to their reset values and runs
the oscillator, its loss resets the domain. A watchdog whose period has passed without a kick is flagged, and takes
the package to SAFE with cause 10 or holds it in reset as ACTION says; before its period nothing happens. Power goes
10 ms after SLEEP is entered, keeps mode 5 and the level of FAULT_N and is counted; an armed alarm wakes the device
and a wake outside SLEEP does nothing. The PCIe link comes up in an awake package; its reset empties the held
completions, ends every LIFT descriptor and, unless an FLR, takes the link down. A TAP instruction is taken, and
EXTEST outside reset acts as BYPASS. Completion (exec answers this next state, under conditions on state and operands
alone) is stated of: supplyValid, rstNAssert, rstNRelease, supplyDip, vaonApply, vaonLoss, watchdogExpiry,
sleepPowerDown, wake, pcieLinkUp, pcieReset, tapInstruction. (16_modes_power_faults.md, 17_host_links_startup.md) -/
def Obligations.ResetsAndStartUp : Prop :=
  ∀ (b : Block) (q : List Instr) (env : BootEnv) (rail a : Nat) (k : PcieResetKind), rail < 10 →
    ((b.boot.powered = true ∨ b.boot.held = true ∨ modeOf b = 5) → exec (.supplyValid env) ⟨b, q⟩ = .next ⟨b, q⟩) ∧
    (b.boot.powered = false → b.boot.held = false → modeOf b ≠ 5 →
      exec (.supplyValid env) ⟨b, q⟩ = .next ⟨bootUp b env 0, q⟩ ∧ (env.crystalOk = true → env.nvmOk = true →
        env.train0.stepDownOk = true → env.train1.stepDownOk = true → b.boot.safeLow = false →
        let runs := imageOk b 0 env.readA || imageOk b 1 env.readB
        let u := bootUp b env 0
        modeOf u = b2n runs ∧ getF u F.NVM_STARTUP_STEP = (if runs = true then 7 else 2) ∧
        getF u F.NVM_STARTUP_FAIL = (if runs = true then 0 else 3) ∧
        getF u F.HOSTCMD_STATE_UE_STATE = (if runs = true then 2 else 4) ∧ u.boot.powered = true) ∧
      (env.crystalOk = false →
        (bootUp b env 0).boot.powered = true ∧ (bootUp b env 0).boot.spiReady = true ∧ modeOf (bootUp b env 0) = 0 ∧
        getF (bootUp b env 0) F.NVM_STARTUP_STEP = 1 ∧ getF (bootUp b env 0) F.NVM_STARTUP_FAIL = 2 ∧
        flag (bootUp b env 0) ⟨R.GLOBAL_RESET_CAUSE, 0, 0⟩ = true ∧ (bootUp b env 0).nvm.bytes = b.nvm.bytes)) ∧
    (b.boot.held = true → exec .rstNAssert ⟨b, q⟩ = .next ⟨b, q⟩) ∧
    (b.boot.held = false → modeOf b ≠ 5 → exec .rstNAssert ⟨b, q⟩ = .next ⟨holdReset b 1, q⟩ ∧
      (holdReset b 1).boot.held = true ∧ (holdReset b 1).boot.cause = 1 ∧ (holdReset b 1).nvm.bytes = b.nvm.bytes ∧
      (holdReset b 1).aon = b.aon ∧ modeOf (holdReset b 1) = 0 ∧
      (0x8000 ≤ a → a < 0x9000 → getP (holdReset b 1) a = getP b a)) ∧
    (b.boot.held = false → exec (.rstNRelease env) ⟨b, q⟩ = .next ⟨b, q⟩) ∧
    (b.boot.held = true → exec (.rstNRelease env) ⟨b, q⟩ = .next ⟨if b.boot.powered = true then
      bootUp b env b.boot.cause else { b with boot := { b.boot with held := false } }, q⟩) ∧
    ((rail = 0 ∨ rail = 4 ∨ rail = 5 ∨ rail = 6) → b.boot.powered = true →
      exec (.supplyDip rail) ⟨b, q⟩ = .next ⟨powerOff b, q⟩ ∧ (powerOff b).boot.powered = false ∧
      (powerOff b).aon = b.aon ∧ (powerOff b).nvm.bytes = b.nvm.bytes ∧ (powerOff b).cmd.hostMem = b.cmd.hostMem) ∧
    ((rail ≠ 0 ∧ rail ≠ 4 ∧ rail ≠ 5 ∧ rail ≠ 6) → exec (.supplyDip rail) ⟨b, q⟩ = .next ⟨b, q⟩) ∧
    (b.aon.on = true → exec .vaonApply ⟨b, q⟩ = .next ⟨b, q⟩) ∧
    (b.aon.on = false → ∃ t, exec .vaonApply ⟨b, q⟩ = .next ⟨t, q⟩ ∧ t.aon = { on := true } ∧
      flag t F.CLOCK_X32_STAT_RUN = true ∧ t.units = b.units ∧
      (0x8000 ≤ a → a < 0x9000 → getP t a = resetWord a)) ∧
    (∃ t, exec .vaonLoss ⟨b, q⟩ = .next ⟨t, q⟩ ∧ t.aon = {} ∧ (b.boot.powered = false → modeOf t = 0) ∧
      t.nvm = b.nvm ∧ t.units = b.units) ∧
    ((b.aon.wdogAt = 0 ∨ b.now + 1 < b.aon.wdogAt) → exec .watchdogExpiry ⟨b, q⟩ = .next ⟨b, q⟩) ∧
    (b.aon.wdogAt ≠ 0 → b.aon.wdogAt ≤ b.now + 1 → modeOf b ≠ 0 → modeOf b ≠ 5 → ∃ u,
      flag u F.AON_STATUS_WDOG_EXP = true ∧ u.aon = b.aon ∧ u.units = b.units ∧ exec .watchdogExpiry ⟨b, q⟩ =
        .next ⟨if flag b F.AON_WDOG_CFG_ACTION = true then holdReset { u with aon := { u.aon with wdogAt := 0 } } 2
          else settleJobs (packageSafe (wdogStart u) 10), q⟩) ∧
    (b.boot.offAt ≠ 0 → b.boot.offAt ≤ b.now + 1 → ∃ t, exec .sleepPowerDown ⟨b, q⟩ = .next ⟨t, q⟩ ∧
      t.boot.powered = false ∧ modeOf t = 5 ∧ flag t F.PATROL_FAULTN_PIN = flag b F.PATROL_FAULTN_PIN ∧
      getF t F.AON_SLEEP_COUNT_COUNT = (getF b F.AON_SLEEP_COUNT_COUNT + 1) % 2 ^ 32) ∧
    (b.boot.offAt = 0 → exec .sleepPowerDown ⟨b, q⟩ = .next ⟨b, q⟩) ∧
    (modeOf b ≠ 5 → ∀ src, exec (.wake src env) ⟨b, q⟩ = .next ⟨b, q⟩) ∧
    (modeOf b = 5 → b.boot.held = false → flag b F.AON_CTRL_ALARM_WAKE = true → flag b F.AON_STATUS_ALARM = true →
      exec (.wake .rtcAlarm env) ⟨b, q⟩ =
        .next ⟨bootUp (setF (setF b F.AON_WAKE_CAUSE_SRC 2) F.AON_WAKE_CAUSE_CMP 0) env 3, q⟩) ∧
    (awake b = true → b.boot.spiReady = true → exec .pcieLinkUp ⟨b, q⟩ =
      .next ⟨{ b with boot := { b.boot with pcieUp := true } }, q⟩) ∧
    (awake b = false → exec .pcieLinkUp ⟨b, q⟩ = .next ⟨b, q⟩) ∧
    (∃ t, exec (.pcieReset k) ⟨b, q⟩ = .next ⟨t, q⟩ ∧ t.cmd.held = [] ∧ (∀ c < 8, (lift t c).st = 0) ∧
      t.cmd.msix = [] ∧ t.cmd.hostMem = b.cmd.hostMem ∧ (∀ j ∈ t.cmd.jobs, j.mute = true) ∧
      t.boot = (if k = .flr then b.boot else { b.boot with pcieUp := false }) ∧
      (0x1040 ≤ a → a < 0x10E0 → getP t a = resetWord a)) ∧
    (b.boot.held = false → exec (.tapInstruction .extest) ⟨b, q⟩ =
      .next ⟨{ b with boot := { b.boot with tap := .bypass } }, q⟩) ∧
    (∀ i, exec (.tapInstruction i) ⟨b, q⟩ = .next ⟨{ b with boot := { b.boot with
      tap := if tapGuarded i = true ∧ b.boot.held = false then .bypass else i } }, q⟩)
end

