-- ==== Sys2Proof/Laws/Bits.lean ====
section
/-! SUPPORT. Bit fields: what a merge of masked bits reads as. -/

namespace Sys2Proof.Machine

theorem add_eq_or {a b : Nat} (h : a &&& b = 0) : a + b = a ||| b := by
  have hlt : a + b < 2 ^ (a + b) := Nat.lt_two_pow_self
  have ha : a < 2 ^ (a + b) := by omega
  have hb : b < 2 ^ (a + b) := by omega
  have h0 : BitVec.ofNat (a + b) a &&& BitVec.ofNat (a + b) b = 0#(a + b) := by
    apply BitVec.eq_of_toNat_eq
    simp only [BitVec.toNat_and, BitVec.toNat_ofNat, Nat.mod_eq_of_lt ha, Nat.mod_eq_of_lt hb, h,
      Nat.zero_mod]
  have h1 := congrArg BitVec.toNat (BitVec.add_eq_or_of_and_eq_zero _ _ h0)
  simpa only [BitVec.toNat_add, BitVec.toNat_or, BitVec.toNat_ofNat, Nat.mod_eq_of_lt ha, Nat.mod_eq_of_lt hb,
    Nat.mod_eq_of_lt hlt] using h1

theorem sub_and_eq_ldiff (a m : Nat) : a - (a &&& m) = Nat.ldiff a m := by
  have h : (a &&& m) &&& Nat.ldiff a m = 0 := by
    apply Nat.eq_of_testBit_eq; intro i
    simp only [Nat.testBit_and, Nat.testBit_ldiff, Nat.zero_testBit]
    cases a.testBit i <;> cases m.testBit i <;> rfl
  have h2 : (a &&& m) ||| Nat.ldiff a m = a := by
    apply Nat.eq_of_testBit_eq; intro i
    simp only [Nat.testBit_or, Nat.testBit_and, Nat.testBit_ldiff]
    cases a.testBit i <;> cases m.testBit i <;> rfl
  have h3 := add_eq_or h
  omega

/-- A merge takes the bits of the mask from the new number and the others from the old. -/
theorem testBit_mergeMask (old new mask i : Nat) :
    (mergeMask old new mask).testBit i = if mask.testBit i then new.testBit i else old.testBit i := by
  have h : Nat.ldiff old mask &&& (new &&& mask) = 0 := by
    apply Nat.eq_of_testBit_eq; intro j
    simp only [Nat.testBit_and, Nat.testBit_ldiff, Nat.zero_testBit]
    cases old.testBit j <;> cases mask.testBit j <;> simp
  unfold mergeMask
  rw [sub_and_eq_ldiff, add_eq_or h]
  simp only [Nat.testBit_or, Nat.testBit_and, Nat.testBit_ldiff]
  cases mask.testBit i <;> simp

/-- The mask of bits `hi` to `lo` has these bits. -/
theorem testBit_maskOf (hi lo i : Nat) (h : lo ≤ hi) :
    (maskOf hi lo).testBit i = (decide (lo ≤ i) && decide (i ≤ hi)) := by
  unfold maskOf
  rw [Nat.testBit_shiftLeft, Nat.testBit_two_pow_sub_one]
  by_cases h1 : lo ≤ i
  · simp only [ge_iff_le, h1, decide_true, Bool.true_and, decide_eq_decide]; omega
  · simp [h1]

/-- The bits of a field of a number. -/
theorem testBit_natBits (n hi lo i : Nat) :
    (natBits n hi lo).testBit i = (decide (i < hi + 1 - lo) && n.testBit (lo + i)) := by
  unfold natBits
  rw [Nat.testBit_mod_two_pow, Nat.testBit_shiftRight]

/-- A merge of all 32 bits is the new word. -/
theorem mergeMask_full (old new : Nat) : Word.ofNat (mergeMask old new 0xFFFFFFFF) = Word.ofNat new := by
  apply BitVec.eq_of_toNat_eq
  apply Nat.eq_of_testBit_eq
  intro i
  rw [BitVec.toNat_ofNat, BitVec.toNat_ofNat, Nat.testBit_mod_two_pow, Nat.testBit_mod_two_pow, testBit_mergeMask]
  by_cases hi : i < 32
  · have hm : (4294967295 : Nat).testBit i = true := by
      rw [show (4294967295 : Nat) = 2 ^ 32 - 1 by norm_num, Nat.testBit_two_pow_sub_one]
      simpa using hi
    simp [hm]
  · simp [hi]

/-- A merge of no bits is the old number. -/
@[simp] theorem mergeMask_zero (old new : Nat) : mergeMask old new 0 = old := by
  simp [mergeMask]

/-- A field that a merge sets reads as its low bits. -/
theorem bits_merge_same (old v hi lo : Nat) (h : lo ≤ hi) (h32 : hi < 32) :
    bits (Word.ofNat (mergeMask old (v <<< lo) (maskOf hi lo))) hi lo = v % 2 ^ (hi + 1 - lo) := by
  apply Nat.eq_of_testBit_eq
  intro i
  unfold bits
  rw [testBit_natBits, BitVec.toNat_ofNat, Nat.testBit_mod_two_pow, testBit_mergeMask, testBit_maskOf _ _ _ h,
    Nat.testBit_mod_two_pow]
  by_cases hi' : i < hi + 1 - lo
  · have h1 : lo + i < 32 := by omega
    have h2 : lo + i ≤ hi := by omega
    simp [hi', h1, h2]
  · simp [hi']

/-- A field outside the bits that a merge sets reads as before. -/
theorem bits_merge_other (old : Word) (v m hi lo : Nat) (h32 : hi < 32)
    (hm : ∀ i, lo ≤ i → i ≤ hi → m.testBit i = false) :
    bits (Word.ofNat (mergeMask old.toNat v m)) hi lo = bits old hi lo := by
  apply Nat.eq_of_testBit_eq
  intro i
  unfold bits
  rw [testBit_natBits, testBit_natBits, BitVec.toNat_ofNat, Nat.testBit_mod_two_pow, testBit_mergeMask]
  by_cases hi' : i < hi + 1 - lo
  · have h1 : lo + i < 32 := by omega
    have h2 := hm (lo + i) (by omega) (by omega)
    simp [h1, h2]
  · simp [hi']

end Sys2Proof.Machine
end

