-- ==== Sys2Proof/Laws/State.lean ====
section
/-! SUPPORT. What the register writes leave alone, and the other updates of the state, one lemma a field. -/

namespace Sys2Proof.Machine

@[simp] theorem putP_now (s : Block) (a m v : Nat) : (putP s a m v).now = s.now := rfl
@[simp] theorem putP_sysTime (s : Block) (a m v : Nat) : (putP s a m v).sysTime = s.sysTime := rfl
@[simp] theorem putP_free (s : Block) (a m v : Nat) : (putP s a m v).free = s.free := rfl
@[simp] theorem putP_flips (s : Block) (a m v : Nat) : (putP s a m v).flips = s.flips := rfl
@[simp] theorem putP_linkQ (s : Block) (a m v : Nat) : (putP s a m v).linkQ = s.linkQ := rfl
@[simp] theorem putP_strobes (s : Block) (a m v : Nat) : (putP s a m v).strobes = s.strobes := rfl
@[simp] theorem putP_hostIf (s : Block) (a m v : Nat) : (putP s a m v).hostIf = s.hostIf := rfl
@[simp] theorem putP_cmd (s : Block) (a m v : Nat) : (putP s a m v).cmd = s.cmd := rfl
@[simp] theorem putP_groups (s : Block) (a m v : Nat) : (putP s a m v).groups = s.groups := rfl
@[simp] theorem putP_units (s : Block) (a m v : Nat) : (putP s a m v).units = s.units := rfl
@[simp] theorem putP_lanes (s : Block) (a m v : Nat) : (putP s a m v).lanes = s.lanes := rfl
@[simp] theorem putP_seqs (s : Block) (a m v : Nat) : (putP s a m v).seqs = s.seqs := rfl
@[simp] theorem putP_sys (s : Block) (a m v : Nat) : (putP s a m v).sys = s.sys := rfl
@[simp] theorem putP_fires (s : Block) (a m v : Nat) : (putP s a m v).fires = s.fires := rfl
@[simp] theorem putP_event (s : Block) (a m v : Nat) : (putP s a m v).event = s.event := rfl
@[simp] theorem putP_gyden (s : Block) (a m v : Nat) : (putP s a m v).gyden = s.gyden := rfl
@[simp] theorem putP_tables (s : Block) (a m v : Nat) : (putP s a m v).tables = s.tables := rfl
@[simp] theorem putP_tableUe (s : Block) (a m v : Nat) : (putP s a m v).tableUe = s.tableUe := rfl
@[simp] theorem putP_mem (s : Block) (a m v : Nat) : (putP s a m v).mem = s.mem := rfl
@[simp] theorem putP_dramc (s : Block) (a m v : Nat) : (putP s a m v).dramc = s.dramc := rfl
@[simp] theorem putP_caps (s : Block) (a m v : Nat) : (putP s a m v).caps = s.caps := rfl
@[simp] theorem putP_acq (s : Block) (a m v : Nat) : (putP s a m v).acq = s.acq := rfl
@[simp] theorem putP_nvm (s : Block) (a m v : Nat) : (putP s a m v).nvm = s.nvm := rfl
@[simp] theorem putP_cal (s : Block) (a m v : Nat) : (putP s a m v).cal = s.cal := rfl
@[simp] theorem putP_clock (s : Block) (a m v : Nat) : (putP s a m v).clock = s.clock := rfl
@[simp] theorem putP_boot (s : Block) (a m v : Nat) : (putP s a m v).boot = s.boot := rfl
@[simp] theorem putP_aon (s : Block) (a m v : Nat) : (putP s a m v).aon = s.aon := rfl

@[simp] theorem putA_now (s : Block) (a m v : Nat) : (putA s a m v).now = s.now := by
  unfold putA; split <;> rfl
@[simp] theorem putA_sysTime (s : Block) (a m v : Nat) : (putA s a m v).sysTime = s.sysTime := by
  unfold putA; split <;> rfl
@[simp] theorem putA_free (s : Block) (a m v : Nat) : (putA s a m v).free = s.free := by
  unfold putA; split <;> rfl
@[simp] theorem putA_flips (s : Block) (a m v : Nat) : (putA s a m v).flips = s.flips := by
  unfold putA; split <;> rfl
@[simp] theorem putA_linkQ (s : Block) (a m v : Nat) : (putA s a m v).linkQ = s.linkQ := by
  unfold putA; split <;> rfl
@[simp] theorem putA_strobes (s : Block) (a m v : Nat) : (putA s a m v).strobes = s.strobes := by
  unfold putA; split <;> rfl
@[simp] theorem putA_hostIf (s : Block) (a m v : Nat) : (putA s a m v).hostIf = s.hostIf := by
  unfold putA; split <;> rfl
@[simp] theorem putA_cmd (s : Block) (a m v : Nat) : (putA s a m v).cmd = s.cmd := by
  unfold putA; split <;> rfl
@[simp] theorem putA_groups (s : Block) (a m v : Nat) : (putA s a m v).groups = s.groups := by
  unfold putA; split <;> rfl
@[simp] theorem putA_units (s : Block) (a m v : Nat) : (putA s a m v).units = s.units := by
  unfold putA; split <;> rfl
@[simp] theorem putA_lanes (s : Block) (a m v : Nat) : (putA s a m v).lanes = s.lanes := by
  unfold putA; split <;> rfl
@[simp] theorem putA_seqs (s : Block) (a m v : Nat) : (putA s a m v).seqs = s.seqs := by
  unfold putA; split <;> rfl
@[simp] theorem putA_sys (s : Block) (a m v : Nat) : (putA s a m v).sys = s.sys := by
  unfold putA; split <;> rfl
@[simp] theorem putA_fires (s : Block) (a m v : Nat) : (putA s a m v).fires = s.fires := by
  unfold putA; split <;> rfl
@[simp] theorem putA_event (s : Block) (a m v : Nat) : (putA s a m v).event = s.event := by
  unfold putA; split <;> rfl
@[simp] theorem putA_gyden (s : Block) (a m v : Nat) : (putA s a m v).gyden = s.gyden := by
  unfold putA; split <;> rfl
@[simp] theorem putA_tables (s : Block) (a m v : Nat) : (putA s a m v).tables = s.tables := by
  unfold putA; split <;> rfl
@[simp] theorem putA_tableUe (s : Block) (a m v : Nat) : (putA s a m v).tableUe = s.tableUe := by
  unfold putA; split <;> rfl
@[simp] theorem putA_mem (s : Block) (a m v : Nat) : (putA s a m v).mem = s.mem := by
  unfold putA; split <;> rfl
@[simp] theorem putA_dramc (s : Block) (a m v : Nat) : (putA s a m v).dramc = s.dramc := by
  unfold putA; split <;> rfl
@[simp] theorem putA_caps (s : Block) (a m v : Nat) : (putA s a m v).caps = s.caps := by
  unfold putA; split <;> rfl
@[simp] theorem putA_acq (s : Block) (a m v : Nat) : (putA s a m v).acq = s.acq := by
  unfold putA; split <;> rfl
@[simp] theorem putA_nvm (s : Block) (a m v : Nat) : (putA s a m v).nvm = s.nvm := by
  unfold putA; split <;> rfl
@[simp] theorem putA_cal (s : Block) (a m v : Nat) : (putA s a m v).cal = s.cal := by
  unfold putA; split <;> rfl
@[simp] theorem putA_clock (s : Block) (a m v : Nat) : (putA s a m v).clock = s.clock := by
  unfold putA; split <;> rfl
@[simp] theorem putA_boot (s : Block) (a m v : Nat) : (putA s a m v).boot = s.boot := by
  unfold putA; split <;> rfl
@[simp] theorem putA_aon (s : Block) (a m v : Nat) : (putA s a m v).aon = s.aon := by
  unfold putA; split <;> rfl

@[simp] theorem putM_now (s : Block) (a m v : Nat) : (putM s a m v).now = s.now := by
  simp [putM]
@[simp] theorem putM_sysTime (s : Block) (a m v : Nat) : (putM s a m v).sysTime = s.sysTime := by
  simp [putM]
@[simp] theorem putM_free (s : Block) (a m v : Nat) : (putM s a m v).free = s.free := by
  simp [putM]
@[simp] theorem putM_flips (s : Block) (a m v : Nat) : (putM s a m v).flips = s.flips := by
  simp [putM]
@[simp] theorem putM_linkQ (s : Block) (a m v : Nat) : (putM s a m v).linkQ = s.linkQ := by
  simp [putM]
@[simp] theorem putM_strobes (s : Block) (a m v : Nat) : (putM s a m v).strobes = s.strobes := by
  simp [putM]
@[simp] theorem putM_hostIf (s : Block) (a m v : Nat) : (putM s a m v).hostIf = s.hostIf := by
  simp [putM]
@[simp] theorem putM_cmd (s : Block) (a m v : Nat) : (putM s a m v).cmd = s.cmd := by
  simp [putM]
@[simp] theorem putM_groups (s : Block) (a m v : Nat) : (putM s a m v).groups = s.groups := by
  simp [putM]
@[simp] theorem putM_units (s : Block) (a m v : Nat) : (putM s a m v).units = s.units := by
  simp [putM]
@[simp] theorem putM_lanes (s : Block) (a m v : Nat) : (putM s a m v).lanes = s.lanes := by
  simp [putM]
@[simp] theorem putM_seqs (s : Block) (a m v : Nat) : (putM s a m v).seqs = s.seqs := by
  simp [putM]
@[simp] theorem putM_sys (s : Block) (a m v : Nat) : (putM s a m v).sys = s.sys := by
  simp [putM]
@[simp] theorem putM_fires (s : Block) (a m v : Nat) : (putM s a m v).fires = s.fires := by
  simp [putM]
@[simp] theorem putM_event (s : Block) (a m v : Nat) : (putM s a m v).event = s.event := by
  simp [putM]
@[simp] theorem putM_gyden (s : Block) (a m v : Nat) : (putM s a m v).gyden = s.gyden := by
  simp [putM]
@[simp] theorem putM_tables (s : Block) (a m v : Nat) : (putM s a m v).tables = s.tables := by
  simp [putM]
@[simp] theorem putM_tableUe (s : Block) (a m v : Nat) : (putM s a m v).tableUe = s.tableUe := by
  simp [putM]
@[simp] theorem putM_mem (s : Block) (a m v : Nat) : (putM s a m v).mem = s.mem := by
  simp [putM]
@[simp] theorem putM_dramc (s : Block) (a m v : Nat) : (putM s a m v).dramc = s.dramc := by
  simp [putM]
@[simp] theorem putM_caps (s : Block) (a m v : Nat) : (putM s a m v).caps = s.caps := by
  simp [putM]
@[simp] theorem putM_acq (s : Block) (a m v : Nat) : (putM s a m v).acq = s.acq := by
  simp [putM]
@[simp] theorem putM_nvm (s : Block) (a m v : Nat) : (putM s a m v).nvm = s.nvm := by
  simp [putM]
@[simp] theorem putM_cal (s : Block) (a m v : Nat) : (putM s a m v).cal = s.cal := by
  simp [putM]
@[simp] theorem putM_clock (s : Block) (a m v : Nat) : (putM s a m v).clock = s.clock := by
  simp [putM]
@[simp] theorem putM_boot (s : Block) (a m v : Nat) : (putM s a m v).boot = s.boot := by
  simp [putM]
@[simp] theorem putM_aon (s : Block) (a m v : Nat) : (putM s a m v).aon = s.aon := by
  simp [putM]

@[simp] theorem setF_now (s : Block) (f : Fld) (v : Nat) : (setF s f v).now = s.now := by
  simp [setF]
@[simp] theorem setF_sysTime (s : Block) (f : Fld) (v : Nat) : (setF s f v).sysTime = s.sysTime := by
  simp [setF]
@[simp] theorem setF_free (s : Block) (f : Fld) (v : Nat) : (setF s f v).free = s.free := by
  simp [setF]
@[simp] theorem setF_flips (s : Block) (f : Fld) (v : Nat) : (setF s f v).flips = s.flips := by
  simp [setF]
@[simp] theorem setF_linkQ (s : Block) (f : Fld) (v : Nat) : (setF s f v).linkQ = s.linkQ := by
  simp [setF]
@[simp] theorem setF_strobes (s : Block) (f : Fld) (v : Nat) : (setF s f v).strobes = s.strobes := by
  simp [setF]
@[simp] theorem setF_hostIf (s : Block) (f : Fld) (v : Nat) : (setF s f v).hostIf = s.hostIf := by
  simp [setF]
@[simp] theorem setF_cmd (s : Block) (f : Fld) (v : Nat) : (setF s f v).cmd = s.cmd := by
  simp [setF]
@[simp] theorem setF_groups (s : Block) (f : Fld) (v : Nat) : (setF s f v).groups = s.groups := by
  simp [setF]
@[simp] theorem setF_units (s : Block) (f : Fld) (v : Nat) : (setF s f v).units = s.units := by
  simp [setF]
@[simp] theorem setF_lanes (s : Block) (f : Fld) (v : Nat) : (setF s f v).lanes = s.lanes := by
  simp [setF]
@[simp] theorem setF_seqs (s : Block) (f : Fld) (v : Nat) : (setF s f v).seqs = s.seqs := by
  simp [setF]
@[simp] theorem setF_sys (s : Block) (f : Fld) (v : Nat) : (setF s f v).sys = s.sys := by
  simp [setF]
@[simp] theorem setF_fires (s : Block) (f : Fld) (v : Nat) : (setF s f v).fires = s.fires := by
  simp [setF]
@[simp] theorem setF_event (s : Block) (f : Fld) (v : Nat) : (setF s f v).event = s.event := by
  simp [setF]
@[simp] theorem setF_gyden (s : Block) (f : Fld) (v : Nat) : (setF s f v).gyden = s.gyden := by
  simp [setF]
@[simp] theorem setF_tables (s : Block) (f : Fld) (v : Nat) : (setF s f v).tables = s.tables := by
  simp [setF]
@[simp] theorem setF_tableUe (s : Block) (f : Fld) (v : Nat) : (setF s f v).tableUe = s.tableUe := by
  simp [setF]
@[simp] theorem setF_mem (s : Block) (f : Fld) (v : Nat) : (setF s f v).mem = s.mem := by
  simp [setF]
@[simp] theorem setF_dramc (s : Block) (f : Fld) (v : Nat) : (setF s f v).dramc = s.dramc := by
  simp [setF]
@[simp] theorem setF_caps (s : Block) (f : Fld) (v : Nat) : (setF s f v).caps = s.caps := by
  simp [setF]
@[simp] theorem setF_acq (s : Block) (f : Fld) (v : Nat) : (setF s f v).acq = s.acq := by
  simp [setF]
@[simp] theorem setF_nvm (s : Block) (f : Fld) (v : Nat) : (setF s f v).nvm = s.nvm := by
  simp [setF]
@[simp] theorem setF_cal (s : Block) (f : Fld) (v : Nat) : (setF s f v).cal = s.cal := by
  simp [setF]
@[simp] theorem setF_clock (s : Block) (f : Fld) (v : Nat) : (setF s f v).clock = s.clock := by
  simp [setF]
@[simp] theorem setF_boot (s : Block) (f : Fld) (v : Nat) : (setF s f v).boot = s.boot := by
  simp [setF]
@[simp] theorem setF_aon (s : Block) (f : Fld) (v : Nat) : (setF s f v).aon = s.aon := by
  simp [setF]

@[simp] theorem setGroup_regs (s : Block) (n : Nat) (x : Group) : (setGroup s n x).regs = s.regs := rfl
@[simp] theorem setGroup_act (s : Block) (n : Nat) (x : Group) : (setGroup s n x).act = s.act := rfl
@[simp] theorem setGroup_now (s : Block) (n : Nat) (x : Group) : (setGroup s n x).now = s.now := rfl
@[simp] theorem setGroup_sysTime (s : Block) (n : Nat) (x : Group) : (setGroup s n x).sysTime = s.sysTime := rfl
@[simp] theorem setGroup_free (s : Block) (n : Nat) (x : Group) : (setGroup s n x).free = s.free := rfl
@[simp] theorem setGroup_flips (s : Block) (n : Nat) (x : Group) : (setGroup s n x).flips = s.flips := rfl
@[simp] theorem setGroup_linkQ (s : Block) (n : Nat) (x : Group) : (setGroup s n x).linkQ = s.linkQ := rfl
@[simp] theorem setGroup_strobes (s : Block) (n : Nat) (x : Group) : (setGroup s n x).strobes = s.strobes := rfl
@[simp] theorem setGroup_hostIf (s : Block) (n : Nat) (x : Group) : (setGroup s n x).hostIf = s.hostIf := rfl
@[simp] theorem setGroup_cmd (s : Block) (n : Nat) (x : Group) : (setGroup s n x).cmd = s.cmd := rfl
@[simp] theorem setGroup_units (s : Block) (n : Nat) (x : Group) : (setGroup s n x).units = s.units := rfl
@[simp] theorem setGroup_lanes (s : Block) (n : Nat) (x : Group) : (setGroup s n x).lanes = s.lanes := rfl
@[simp] theorem setGroup_seqs (s : Block) (n : Nat) (x : Group) : (setGroup s n x).seqs = s.seqs := rfl
@[simp] theorem setGroup_sys (s : Block) (n : Nat) (x : Group) : (setGroup s n x).sys = s.sys := rfl
@[simp] theorem setGroup_fires (s : Block) (n : Nat) (x : Group) : (setGroup s n x).fires = s.fires := rfl
@[simp] theorem setGroup_event (s : Block) (n : Nat) (x : Group) : (setGroup s n x).event = s.event := rfl
@[simp] theorem setGroup_gyden (s : Block) (n : Nat) (x : Group) : (setGroup s n x).gyden = s.gyden := rfl
@[simp] theorem setGroup_tables (s : Block) (n : Nat) (x : Group) : (setGroup s n x).tables = s.tables := rfl
@[simp] theorem setGroup_tableUe (s : Block) (n : Nat) (x : Group) : (setGroup s n x).tableUe = s.tableUe := rfl
@[simp] theorem setGroup_mem (s : Block) (n : Nat) (x : Group) : (setGroup s n x).mem = s.mem := rfl
@[simp] theorem setGroup_dramc (s : Block) (n : Nat) (x : Group) : (setGroup s n x).dramc = s.dramc := rfl
@[simp] theorem setGroup_caps (s : Block) (n : Nat) (x : Group) : (setGroup s n x).caps = s.caps := rfl
@[simp] theorem setGroup_acq (s : Block) (n : Nat) (x : Group) : (setGroup s n x).acq = s.acq := rfl
@[simp] theorem setGroup_nvm (s : Block) (n : Nat) (x : Group) : (setGroup s n x).nvm = s.nvm := rfl
@[simp] theorem setGroup_cal (s : Block) (n : Nat) (x : Group) : (setGroup s n x).cal = s.cal := rfl
@[simp] theorem setGroup_clock (s : Block) (n : Nat) (x : Group) : (setGroup s n x).clock = s.clock := rfl
@[simp] theorem setGroup_boot (s : Block) (n : Nat) (x : Group) : (setGroup s n x).boot = s.boot := rfl
@[simp] theorem setGroup_aon (s : Block) (n : Nat) (x : Group) : (setGroup s n x).aon = s.aon := rfl

@[simp] theorem setUnit_regs (s : Block) (n : Nat) (x : UnitSt) : (setUnit s n x).regs = s.regs := rfl
@[simp] theorem setUnit_act (s : Block) (n : Nat) (x : UnitSt) : (setUnit s n x).act = s.act := rfl
@[simp] theorem setUnit_now (s : Block) (n : Nat) (x : UnitSt) : (setUnit s n x).now = s.now := rfl
@[simp] theorem setUnit_sysTime (s : Block) (n : Nat) (x : UnitSt) : (setUnit s n x).sysTime = s.sysTime := rfl
@[simp] theorem setUnit_free (s : Block) (n : Nat) (x : UnitSt) : (setUnit s n x).free = s.free := rfl
@[simp] theorem setUnit_flips (s : Block) (n : Nat) (x : UnitSt) : (setUnit s n x).flips = s.flips := rfl
@[simp] theorem setUnit_linkQ (s : Block) (n : Nat) (x : UnitSt) : (setUnit s n x).linkQ = s.linkQ := rfl
@[simp] theorem setUnit_strobes (s : Block) (n : Nat) (x : UnitSt) : (setUnit s n x).strobes = s.strobes := rfl
@[simp] theorem setUnit_hostIf (s : Block) (n : Nat) (x : UnitSt) : (setUnit s n x).hostIf = s.hostIf := rfl
@[simp] theorem setUnit_cmd (s : Block) (n : Nat) (x : UnitSt) : (setUnit s n x).cmd = s.cmd := rfl
@[simp] theorem setUnit_groups (s : Block) (n : Nat) (x : UnitSt) : (setUnit s n x).groups = s.groups := rfl
@[simp] theorem setUnit_lanes (s : Block) (n : Nat) (x : UnitSt) : (setUnit s n x).lanes = s.lanes := rfl
@[simp] theorem setUnit_seqs (s : Block) (n : Nat) (x : UnitSt) : (setUnit s n x).seqs = s.seqs := rfl
@[simp] theorem setUnit_sys (s : Block) (n : Nat) (x : UnitSt) : (setUnit s n x).sys = s.sys := rfl
@[simp] theorem setUnit_fires (s : Block) (n : Nat) (x : UnitSt) : (setUnit s n x).fires = s.fires := rfl
@[simp] theorem setUnit_event (s : Block) (n : Nat) (x : UnitSt) : (setUnit s n x).event = s.event := rfl
@[simp] theorem setUnit_gyden (s : Block) (n : Nat) (x : UnitSt) : (setUnit s n x).gyden = s.gyden := rfl
@[simp] theorem setUnit_tables (s : Block) (n : Nat) (x : UnitSt) : (setUnit s n x).tables = s.tables := rfl
@[simp] theorem setUnit_tableUe (s : Block) (n : Nat) (x : UnitSt) : (setUnit s n x).tableUe = s.tableUe := rfl
@[simp] theorem setUnit_mem (s : Block) (n : Nat) (x : UnitSt) : (setUnit s n x).mem = s.mem := rfl
@[simp] theorem setUnit_dramc (s : Block) (n : Nat) (x : UnitSt) : (setUnit s n x).dramc = s.dramc := rfl
@[simp] theorem setUnit_caps (s : Block) (n : Nat) (x : UnitSt) : (setUnit s n x).caps = s.caps := rfl
@[simp] theorem setUnit_acq (s : Block) (n : Nat) (x : UnitSt) : (setUnit s n x).acq = s.acq := rfl
@[simp] theorem setUnit_nvm (s : Block) (n : Nat) (x : UnitSt) : (setUnit s n x).nvm = s.nvm := rfl
@[simp] theorem setUnit_cal (s : Block) (n : Nat) (x : UnitSt) : (setUnit s n x).cal = s.cal := rfl
@[simp] theorem setUnit_clock (s : Block) (n : Nat) (x : UnitSt) : (setUnit s n x).clock = s.clock := rfl
@[simp] theorem setUnit_boot (s : Block) (n : Nat) (x : UnitSt) : (setUnit s n x).boot = s.boot := rfl
@[simp] theorem setUnit_aon (s : Block) (n : Nat) (x : UnitSt) : (setUnit s n x).aon = s.aon := rfl

@[simp] theorem setLane_regs (s : Block) (n : Nat) (x : LaneSt) : (setLane s n x).regs = s.regs := rfl
@[simp] theorem setLane_act (s : Block) (n : Nat) (x : LaneSt) : (setLane s n x).act = s.act := rfl
@[simp] theorem setLane_now (s : Block) (n : Nat) (x : LaneSt) : (setLane s n x).now = s.now := rfl
@[simp] theorem setLane_sysTime (s : Block) (n : Nat) (x : LaneSt) : (setLane s n x).sysTime = s.sysTime := rfl
@[simp] theorem setLane_free (s : Block) (n : Nat) (x : LaneSt) : (setLane s n x).free = s.free := rfl
@[simp] theorem setLane_flips (s : Block) (n : Nat) (x : LaneSt) : (setLane s n x).flips = s.flips := rfl
@[simp] theorem setLane_linkQ (s : Block) (n : Nat) (x : LaneSt) : (setLane s n x).linkQ = s.linkQ := rfl
@[simp] theorem setLane_strobes (s : Block) (n : Nat) (x : LaneSt) : (setLane s n x).strobes = s.strobes := rfl
@[simp] theorem setLane_hostIf (s : Block) (n : Nat) (x : LaneSt) : (setLane s n x).hostIf = s.hostIf := rfl
@[simp] theorem setLane_cmd (s : Block) (n : Nat) (x : LaneSt) : (setLane s n x).cmd = s.cmd := rfl
@[simp] theorem setLane_groups (s : Block) (n : Nat) (x : LaneSt) : (setLane s n x).groups = s.groups := rfl
@[simp] theorem setLane_units (s : Block) (n : Nat) (x : LaneSt) : (setLane s n x).units = s.units := rfl
@[simp] theorem setLane_seqs (s : Block) (n : Nat) (x : LaneSt) : (setLane s n x).seqs = s.seqs := rfl
@[simp] theorem setLane_sys (s : Block) (n : Nat) (x : LaneSt) : (setLane s n x).sys = s.sys := rfl
@[simp] theorem setLane_fires (s : Block) (n : Nat) (x : LaneSt) : (setLane s n x).fires = s.fires := rfl
@[simp] theorem setLane_event (s : Block) (n : Nat) (x : LaneSt) : (setLane s n x).event = s.event := rfl
@[simp] theorem setLane_gyden (s : Block) (n : Nat) (x : LaneSt) : (setLane s n x).gyden = s.gyden := rfl
@[simp] theorem setLane_tables (s : Block) (n : Nat) (x : LaneSt) : (setLane s n x).tables = s.tables := rfl
@[simp] theorem setLane_tableUe (s : Block) (n : Nat) (x : LaneSt) : (setLane s n x).tableUe = s.tableUe := rfl
@[simp] theorem setLane_mem (s : Block) (n : Nat) (x : LaneSt) : (setLane s n x).mem = s.mem := rfl
@[simp] theorem setLane_dramc (s : Block) (n : Nat) (x : LaneSt) : (setLane s n x).dramc = s.dramc := rfl
@[simp] theorem setLane_caps (s : Block) (n : Nat) (x : LaneSt) : (setLane s n x).caps = s.caps := rfl
@[simp] theorem setLane_acq (s : Block) (n : Nat) (x : LaneSt) : (setLane s n x).acq = s.acq := rfl
@[simp] theorem setLane_nvm (s : Block) (n : Nat) (x : LaneSt) : (setLane s n x).nvm = s.nvm := rfl
@[simp] theorem setLane_cal (s : Block) (n : Nat) (x : LaneSt) : (setLane s n x).cal = s.cal := rfl
@[simp] theorem setLane_clock (s : Block) (n : Nat) (x : LaneSt) : (setLane s n x).clock = s.clock := rfl
@[simp] theorem setLane_boot (s : Block) (n : Nat) (x : LaneSt) : (setLane s n x).boot = s.boot := rfl
@[simp] theorem setLane_aon (s : Block) (n : Nat) (x : LaneSt) : (setLane s n x).aon = s.aon := rfl

@[simp] theorem setSeq_regs (s : Block) (n : Nat) (x : SeqSt) : (setSeq s n x).regs = s.regs := rfl
@[simp] theorem setSeq_act (s : Block) (n : Nat) (x : SeqSt) : (setSeq s n x).act = s.act := rfl
@[simp] theorem setSeq_now (s : Block) (n : Nat) (x : SeqSt) : (setSeq s n x).now = s.now := rfl
@[simp] theorem setSeq_sysTime (s : Block) (n : Nat) (x : SeqSt) : (setSeq s n x).sysTime = s.sysTime := rfl
@[simp] theorem setSeq_free (s : Block) (n : Nat) (x : SeqSt) : (setSeq s n x).free = s.free := rfl
@[simp] theorem setSeq_flips (s : Block) (n : Nat) (x : SeqSt) : (setSeq s n x).flips = s.flips := rfl
@[simp] theorem setSeq_linkQ (s : Block) (n : Nat) (x : SeqSt) : (setSeq s n x).linkQ = s.linkQ := rfl
@[simp] theorem setSeq_strobes (s : Block) (n : Nat) (x : SeqSt) : (setSeq s n x).strobes = s.strobes := rfl
@[simp] theorem setSeq_hostIf (s : Block) (n : Nat) (x : SeqSt) : (setSeq s n x).hostIf = s.hostIf := rfl
@[simp] theorem setSeq_cmd (s : Block) (n : Nat) (x : SeqSt) : (setSeq s n x).cmd = s.cmd := rfl
@[simp] theorem setSeq_groups (s : Block) (n : Nat) (x : SeqSt) : (setSeq s n x).groups = s.groups := rfl
@[simp] theorem setSeq_units (s : Block) (n : Nat) (x : SeqSt) : (setSeq s n x).units = s.units := rfl
@[simp] theorem setSeq_lanes (s : Block) (n : Nat) (x : SeqSt) : (setSeq s n x).lanes = s.lanes := rfl
@[simp] theorem setSeq_sys (s : Block) (n : Nat) (x : SeqSt) : (setSeq s n x).sys = s.sys := rfl
@[simp] theorem setSeq_fires (s : Block) (n : Nat) (x : SeqSt) : (setSeq s n x).fires = s.fires := rfl
@[simp] theorem setSeq_event (s : Block) (n : Nat) (x : SeqSt) : (setSeq s n x).event = s.event := rfl
@[simp] theorem setSeq_gyden (s : Block) (n : Nat) (x : SeqSt) : (setSeq s n x).gyden = s.gyden := rfl
@[simp] theorem setSeq_tables (s : Block) (n : Nat) (x : SeqSt) : (setSeq s n x).tables = s.tables := rfl
@[simp] theorem setSeq_tableUe (s : Block) (n : Nat) (x : SeqSt) : (setSeq s n x).tableUe = s.tableUe := rfl
@[simp] theorem setSeq_mem (s : Block) (n : Nat) (x : SeqSt) : (setSeq s n x).mem = s.mem := rfl
@[simp] theorem setSeq_dramc (s : Block) (n : Nat) (x : SeqSt) : (setSeq s n x).dramc = s.dramc := rfl
@[simp] theorem setSeq_caps (s : Block) (n : Nat) (x : SeqSt) : (setSeq s n x).caps = s.caps := rfl
@[simp] theorem setSeq_acq (s : Block) (n : Nat) (x : SeqSt) : (setSeq s n x).acq = s.acq := rfl
@[simp] theorem setSeq_nvm (s : Block) (n : Nat) (x : SeqSt) : (setSeq s n x).nvm = s.nvm := rfl
@[simp] theorem setSeq_cal (s : Block) (n : Nat) (x : SeqSt) : (setSeq s n x).cal = s.cal := rfl
@[simp] theorem setSeq_clock (s : Block) (n : Nat) (x : SeqSt) : (setSeq s n x).clock = s.clock := rfl
@[simp] theorem setSeq_boot (s : Block) (n : Nat) (x : SeqSt) : (setSeq s n x).boot = s.boot := rfl
@[simp] theorem setSeq_aon (s : Block) (n : Nat) (x : SeqSt) : (setSeq s n x).aon = s.aon := rfl

@[simp] theorem fire_regs (s : Block) (a h d : Nat) : (fire s a h d).regs = s.regs := rfl
@[simp] theorem fire_act (s : Block) (a h d : Nat) : (fire s a h d).act = s.act := rfl
@[simp] theorem fire_now (s : Block) (a h d : Nat) : (fire s a h d).now = s.now := rfl
@[simp] theorem fire_sysTime (s : Block) (a h d : Nat) : (fire s a h d).sysTime = s.sysTime := rfl
@[simp] theorem fire_free (s : Block) (a h d : Nat) : (fire s a h d).free = s.free := rfl
@[simp] theorem fire_flips (s : Block) (a h d : Nat) : (fire s a h d).flips = s.flips := rfl
@[simp] theorem fire_linkQ (s : Block) (a h d : Nat) : (fire s a h d).linkQ = s.linkQ := rfl
@[simp] theorem fire_strobes (s : Block) (a h d : Nat) : (fire s a h d).strobes = s.strobes := rfl
@[simp] theorem fire_hostIf (s : Block) (a h d : Nat) : (fire s a h d).hostIf = s.hostIf := rfl
@[simp] theorem fire_cmd (s : Block) (a h d : Nat) : (fire s a h d).cmd = s.cmd := rfl
@[simp] theorem fire_groups (s : Block) (a h d : Nat) : (fire s a h d).groups = s.groups := rfl
@[simp] theorem fire_units (s : Block) (a h d : Nat) : (fire s a h d).units = s.units := rfl
@[simp] theorem fire_lanes (s : Block) (a h d : Nat) : (fire s a h d).lanes = s.lanes := rfl
@[simp] theorem fire_seqs (s : Block) (a h d : Nat) : (fire s a h d).seqs = s.seqs := rfl
@[simp] theorem fire_sys (s : Block) (a h d : Nat) : (fire s a h d).sys = s.sys := rfl
@[simp] theorem fire_event (s : Block) (a h d : Nat) : (fire s a h d).event = s.event := rfl
@[simp] theorem fire_gyden (s : Block) (a h d : Nat) : (fire s a h d).gyden = s.gyden := rfl
@[simp] theorem fire_tables (s : Block) (a h d : Nat) : (fire s a h d).tables = s.tables := rfl
@[simp] theorem fire_tableUe (s : Block) (a h d : Nat) : (fire s a h d).tableUe = s.tableUe := rfl
@[simp] theorem fire_mem (s : Block) (a h d : Nat) : (fire s a h d).mem = s.mem := rfl
@[simp] theorem fire_dramc (s : Block) (a h d : Nat) : (fire s a h d).dramc = s.dramc := rfl
@[simp] theorem fire_caps (s : Block) (a h d : Nat) : (fire s a h d).caps = s.caps := rfl
@[simp] theorem fire_acq (s : Block) (a h d : Nat) : (fire s a h d).acq = s.acq := rfl
@[simp] theorem fire_nvm (s : Block) (a h d : Nat) : (fire s a h d).nvm = s.nvm := rfl
@[simp] theorem fire_cal (s : Block) (a h d : Nat) : (fire s a h d).cal = s.cal := rfl
@[simp] theorem fire_clock (s : Block) (a h d : Nat) : (fire s a h d).clock = s.clock := rfl
@[simp] theorem fire_boot (s : Block) (a h d : Nat) : (fire s a h d).boot = s.boot := rfl
@[simp] theorem fire_aon (s : Block) (a h d : Nat) : (fire s a h d).aon = s.aon := rfl

@[simp] theorem useFree_regs (s : Block)  : (useFree s).regs = s.regs := rfl
@[simp] theorem useFree_act (s : Block)  : (useFree s).act = s.act := rfl
@[simp] theorem useFree_now (s : Block)  : (useFree s).now = s.now := rfl
@[simp] theorem useFree_sysTime (s : Block)  : (useFree s).sysTime = s.sysTime := rfl
@[simp] theorem useFree_flips (s : Block)  : (useFree s).flips = s.flips := rfl
@[simp] theorem useFree_linkQ (s : Block)  : (useFree s).linkQ = s.linkQ := rfl
@[simp] theorem useFree_strobes (s : Block)  : (useFree s).strobes = s.strobes := rfl
@[simp] theorem useFree_hostIf (s : Block)  : (useFree s).hostIf = s.hostIf := rfl
@[simp] theorem useFree_cmd (s : Block)  : (useFree s).cmd = s.cmd := rfl
@[simp] theorem useFree_groups (s : Block)  : (useFree s).groups = s.groups := rfl
@[simp] theorem useFree_units (s : Block)  : (useFree s).units = s.units := rfl
@[simp] theorem useFree_lanes (s : Block)  : (useFree s).lanes = s.lanes := rfl
@[simp] theorem useFree_seqs (s : Block)  : (useFree s).seqs = s.seqs := rfl
@[simp] theorem useFree_sys (s : Block)  : (useFree s).sys = s.sys := rfl
@[simp] theorem useFree_fires (s : Block)  : (useFree s).fires = s.fires := rfl
@[simp] theorem useFree_event (s : Block)  : (useFree s).event = s.event := rfl
@[simp] theorem useFree_gyden (s : Block)  : (useFree s).gyden = s.gyden := rfl
@[simp] theorem useFree_tables (s : Block)  : (useFree s).tables = s.tables := rfl
@[simp] theorem useFree_tableUe (s : Block)  : (useFree s).tableUe = s.tableUe := rfl
@[simp] theorem useFree_mem (s : Block)  : (useFree s).mem = s.mem := rfl
@[simp] theorem useFree_dramc (s : Block)  : (useFree s).dramc = s.dramc := rfl
@[simp] theorem useFree_caps (s : Block)  : (useFree s).caps = s.caps := rfl
@[simp] theorem useFree_acq (s : Block)  : (useFree s).acq = s.acq := rfl
@[simp] theorem useFree_nvm (s : Block)  : (useFree s).nvm = s.nvm := rfl
@[simp] theorem useFree_cal (s : Block)  : (useFree s).cal = s.cal := rfl
@[simp] theorem useFree_clock (s : Block)  : (useFree s).clock = s.clock := rfl
@[simp] theorem useFree_boot (s : Block)  : (useFree s).boot = s.boot := rfl
@[simp] theorem useFree_aon (s : Block)  : (useFree s).aon = s.aon := rfl

end Sys2Proof.Machine
end

