-- ==== Sys2Proof/Laws/Tbl.lean ====
section
/-! SUPPORT. The sparse tables: a read after a write, and the canonical form that every write keeps. -/

namespace Sys2Proof.Machine

variable {α : Type}

/-- A key lies below every key of the table. -/
def Tbl.below (k : Nat) (m : List (Nat × α)) : Prop := ∀ p ∈ m, k < p.1

theorem Tbl.rising_cons {k : Nat} {v : α} {m : List (Nat × α)} :
    Tbl.rising ((k, v) :: m) = true ↔ Tbl.below k m ∧ Tbl.rising m = true := by
  induction m generalizing k v with
  | nil => simp [Tbl.rising, Tbl.below]
  | cons p t ih =>
    obtain ⟨a, b⟩ := p
    constructor
    · intro h
      simp only [Tbl.rising, Bool.and_eq_true, decide_eq_true_eq] at h
      refine ⟨?_, h.2⟩
      intro q hq
      rcases List.mem_cons.mp hq with rfl | hq
      · exact h.1
      · exact lt_trans h.1 ((ih.mp h.2).1 q hq)
    · rintro ⟨hb, hr⟩
      simp only [Tbl.rising, Bool.and_eq_true, decide_eq_true_eq]
      exact ⟨hb (a, b) (by simp), hr⟩

theorem Tbl.mem_erase {k : Nat} {m : List (Nat × α)} {p : Nat × α} :
    p ∈ Tbl.erase k m ↔ p ∈ m ∧ p.1 ≠ k := by
  induction m with
  | nil => simp [Tbl.erase]
  | cons q t ih =>
    obtain ⟨a, b⟩ := q
    by_cases h : a = k
    · subst h
      simp only [Tbl.erase, if_true, ih, List.mem_cons]
      constructor
      · rintro ⟨h1, h2⟩; exact ⟨.inr h1, h2⟩
      · rintro ⟨rfl | h1, h2⟩
        · exact absurd rfl h2
        · exact ⟨h1, h2⟩
    · simp only [Tbl.erase, h, if_false, List.mem_cons, ih]
      constructor
      · rintro (rfl | ⟨h1, h2⟩)
        · exact ⟨.inl rfl, h⟩
        · exact ⟨.inr h1, h2⟩
      · rintro ⟨rfl | h1, h2⟩
        · exact .inl rfl
        · exact .inr ⟨h1, h2⟩

theorem Tbl.mem_insert {k : Nat} {v : α} {m : List (Nat × α)} {p : Nat × α} :
    p ∈ Tbl.insert k v m ↔ p = (k, v) ∨ p ∈ m := by
  induction m with
  | nil => simp [Tbl.insert]
  | cons q t ih =>
    obtain ⟨a, b⟩ := q
    by_cases h : k < a
    · simp [Tbl.insert, h]
    · simp only [Tbl.insert, h, if_false, List.mem_cons, ih]
      tauto

theorem Tbl.rising_erase {k : Nat} {m : List (Nat × α)} (h : Tbl.rising m = true) :
    Tbl.rising (Tbl.erase k m) = true := by
  induction m with
  | nil => rfl
  | cons q t ih =>
    obtain ⟨a, b⟩ := q
    have hc := Tbl.rising_cons.mp h
    by_cases hk : a = k
    · simp only [Tbl.erase, hk, if_true]; exact ih hc.2
    · simp only [Tbl.erase, hk, if_false]
      exact Tbl.rising_cons.mpr ⟨fun p hp => hc.1 p (Tbl.mem_erase.mp hp).1, ih hc.2⟩

theorem Tbl.rising_insert {k : Nat} {v : α} {m : List (Nat × α)} (h : Tbl.rising m = true)
    (hk : ∀ p ∈ m, p.1 ≠ k) : Tbl.rising (Tbl.insert k v m) = true := by
  induction m with
  | nil => rfl
  | cons q t ih =>
    obtain ⟨a, b⟩ := q
    have hc := Tbl.rising_cons.mp h
    have ha : a ≠ k := hk (a, b) (by simp)
    by_cases hlt : k < a
    · simp only [Tbl.insert, hlt, if_true]
      refine Tbl.rising_cons.mpr ⟨?_, h⟩
      intro p hp
      rcases List.mem_cons.mp hp with rfl | hp
      · exact hlt
      · exact lt_trans hlt (hc.1 p hp)
    · simp only [Tbl.insert, hlt, if_false]
      refine Tbl.rising_cons.mpr ⟨?_, ih hc.2 (fun p hp => hk p (by simp [hp]))⟩
      intro p hp
      rcases Tbl.mem_insert.mp hp with rfl | hp
      · exact lt_of_le_of_ne (Nat.le_of_not_lt hlt) ha
      · exact hc.1 p hp

theorem Tbl.get_erase_same (d : Nat → α) (k : Nat) (m : List (Nat × α)) :
    Tbl.get d (Tbl.erase k m) k = d k := by
  induction m with
  | nil => rfl
  | cons q t ih =>
    obtain ⟨a, b⟩ := q
    by_cases h : a = k
    · simp [Tbl.erase, h, ih]
    · simp [Tbl.erase, h, Tbl.get, ih]

theorem Tbl.get_erase_ne (d : Nat → α) {k j : Nat} (m : List (Nat × α)) (h : j ≠ k) :
    Tbl.get d (Tbl.erase k m) j = Tbl.get d m j := by
  induction m with
  | nil => rfl
  | cons q t ih =>
    obtain ⟨a, b⟩ := q
    by_cases hk : a = k
    · have : ¬ k = j := fun e => h e.symm
      simp [Tbl.erase, Tbl.get, hk, this, ih]
    · simp [Tbl.erase, Tbl.get, hk, ih]

theorem Tbl.get_insert_same (d : Nat → α) (k : Nat) (v : α) (m : List (Nat × α))
    (hk : ∀ p ∈ m, p.1 ≠ k) : Tbl.get d (Tbl.insert k v m) k = v := by
  induction m with
  | nil => simp [Tbl.insert, Tbl.get]
  | cons q t ih =>
    obtain ⟨a, b⟩ := q
    have ha : a ≠ k := hk (a, b) (by simp)
    by_cases h : k < a
    · simp [Tbl.insert, h, Tbl.get]
    · simp [Tbl.insert, h, Tbl.get, ha, ih (fun p hp => hk p (by simp [hp]))]

theorem Tbl.get_insert_ne (d : Nat → α) {k j : Nat} (v : α) (m : List (Nat × α)) (h : j ≠ k) :
    Tbl.get d (Tbl.insert k v m) j = Tbl.get d m j := by
  have hkj : ¬ k = j := fun e => h e.symm
  induction m with
  | nil => simp [Tbl.insert, Tbl.get, hkj]
  | cons q t ih =>
    obtain ⟨a, b⟩ := q
    by_cases hl : k < a
    · simp [Tbl.insert, hl, Tbl.get, hkj]
    · simp [Tbl.insert, hl, Tbl.get, ih]

theorem Tbl.erase_ne_key {k : Nat} {m : List (Nat × α)} : ∀ p ∈ Tbl.erase k m, p.1 ≠ k :=
  fun _ hp => (Tbl.mem_erase.mp hp).2

/-- An empty table reads as its default. -/
@[simp] theorem Tbl.get_nil (d : Nat → α) (k : Nat) : Tbl.get d [] k = d k := rfl

variable [DecidableEq α]

/-- Key `k` reads as it was written. -/
@[simp] theorem Tbl.get_set_same (d : Nat → α) (m : List (Nat × α)) (k : Nat) (v : α) :
    Tbl.get d (Tbl.set d m k v) k = v := by
  unfold Tbl.set
  split
  · rename_i h; rw [Tbl.get_erase_same, h]
  · exact Tbl.get_insert_same d k v _ Tbl.erase_ne_key

/-- Every other key reads as before. -/
theorem Tbl.get_set_ne (d : Nat → α) (m : List (Nat × α)) {k j : Nat} (v : α) (h : j ≠ k) :
    Tbl.get d (Tbl.set d m k v) j = Tbl.get d m j := by
  unfold Tbl.set
  split
  · exact Tbl.get_erase_ne d m h
  · rw [Tbl.get_insert_ne d v _ h, Tbl.get_erase_ne d m h]

/-- A read after a write. -/
theorem Tbl.get_set (d : Nat → α) (m : List (Nat × α)) (k j : Nat) (v : α) :
    Tbl.get d (Tbl.set d m k v) j = if j = k then v else Tbl.get d m j := by
  split
  · rename_i h; subst h; simp
  · rename_i h; exact Tbl.get_set_ne d m v h

/-- A write keeps the canonical form. -/
theorem Tbl.wf_set {d : Nat → α} {m : List (Nat × α)} (k : Nat) (v : α) (h : Tbl.wf d m = true) :
    Tbl.wf d (Tbl.set d m k v) = true := by
  simp only [Tbl.wf, Bool.and_eq_true, List.all_eq_true, decide_eq_true_eq] at h ⊢
  unfold Tbl.set
  split
  · exact ⟨Tbl.rising_erase h.1, fun p hp => h.2 p (Tbl.mem_erase.mp hp).1⟩
  · rename_i hv
    refine ⟨Tbl.rising_insert (Tbl.rising_erase h.1) Tbl.erase_ne_key, fun p hp => ?_⟩
    rcases Tbl.mem_insert.mp hp with rfl | hp
    · exact hv
    · exact h.2 p (Tbl.mem_erase.mp hp).1

/-- The empty table is in canonical form. -/
@[simp] theorem Tbl.wf_nil (d : Nat → α) : Tbl.wf d [] = true := rfl

end Sys2Proof.Machine
end

