-- ==== Sys2Proof/Laws/Regs.lean ====
section
/-! SUPPORT. Registers and their fields: what a write of a field leaves in every word and field. -/

namespace Sys2Proof.Machine

/-! ## Words -/

@[simp] theorem putP_act (s : Block) (a m v : Nat) : (putP s a m v).act = s.act := rfl

@[simp] theorem putA_regs (s : Block) (a m v : Nat) : (putA s a m v).regs = s.regs := by
  unfold putA; split <;> rfl

/-- The programmed word after a write of programmed bits. -/
theorem getP_putP (s : Block) (a m v b : Nat) :
    getP (putP s a m v) b = if b = a then Word.ofNat (mergeMask (getP s a).toNat v m) else getP s b := by
  simp only [getP, putP, Tbl.get_set]

/-- A write of the bits in force leaves every programmed word. -/
@[simp] theorem getP_putA (s : Block) (a m v b : Nat) : getP (putA s a m v) b = getP s b := by
  simp [getP]

/-- The word in force after a write of programmed bits: the same word below 0x20000, where there is but one. -/
theorem getW_putP (s : Block) (a m v b : Nat) :
    getW (putP s a m v) b = if twoFold b = false ∧ b = a then Word.ofNat (mergeMask (getW s a).toNat v m) else getW s b := by
  by_cases h : twoFold b = true
  · simp [getW, h]
  · have hb : twoFold b = false := by simpa using h
    by_cases hab : b = a
    · subst hab; simp [getW, hb, putP, getP]
    · simp [getW, hb, hab, putP, Tbl.get_set_ne]

/-- The word in force after a write of bits in force. -/
theorem getW_putA (s : Block) (a m v b : Nat) :
    getW (putA s a m v) b = if twoFold b = true ∧ b = a then Word.ofNat (mergeMask (getW s a).toNat v m) else getW s b := by
  by_cases ha : twoFold a = true
  · by_cases hb : twoFold b = true
    · simp only [getW, hb, if_true, true_and, putA, ha, Tbl.get_set]
    · simp [getW, hb, putA, ha]
  · have ha' : twoFold a = false := by simpa using ha
    by_cases hab : b = a
    · subst hab; simp [putA, ha']
    · simp [putA, ha', hab]

/-- The word in force after a write by the hardware. -/
theorem getW_putM (s : Block) (a m v b : Nat) :
    getW (putM s a m v) b = if b = a then Word.ofNat (mergeMask (getW s a).toNat v m) else getW s b := by
  unfold putM
  rw [getW_putA, getW_putP, getW_putP]
  by_cases hab : b = a
  · subst hab
    cases h : twoFold b <;> simp
  · simp [hab]

/-- The programmed word after a write by the hardware. -/
theorem getP_putM (s : Block) (a m v b : Nat) :
    getP (putM s a m v) b = if b = a then Word.ofNat (mergeMask (getP s a).toNat v m) else getP s b := by
  unfold putM
  rw [getP_putA, getP_putP]

/-! ## Fields -/

/-- The word in force after a field is set. -/
theorem getW_setF (s : Block) (f : Fld) (v b : Nat) :
    getW (setF s f v) b =
      if b = f.adr then Word.ofNat (mergeMask (getW s f.adr).toNat (v <<< f.lo) (maskOf f.hi f.lo)) else getW s b := by
  unfold setF; rw [getW_putM]

/-- The programmed word after a field is set. -/
theorem getP_setF (s : Block) (f : Fld) (v b : Nat) :
    getP (setF s f v) b =
      if b = f.adr then Word.ofNat (mergeMask (getP s f.adr).toNat (v <<< f.lo) (maskOf f.hi f.lo)) else getP s b := by
  unfold setF; rw [getP_putM]

/-- A field that is set reads as it was set. -/
theorem getF_setF_same (s : Block) (f : Fld) (v : Nat) (h : f.lo ≤ f.hi) (h32 : f.hi < 32) :
    getF (setF s f v) f = v % 2 ^ (f.hi + 1 - f.lo) := by
  unfold getF; rw [getW_setF, if_pos rfl]; exact bits_merge_same _ _ _ _ h h32

/-- A field of another register reads as before. -/
theorem getF_setF_adr (s : Block) (f g : Fld) (v : Nat) (h : g.adr ≠ f.adr) :
    getF (setF s f v) g = getF s g := by
  unfold getF; rw [getW_setF, if_neg h]

/-- A field of the same register with no bit in common reads as before. -/
theorem getF_setF_bits (s : Block) (f g : Fld) (v : Nat) (hf : f.lo ≤ f.hi) (hg : g.hi < 32)
    (h : g.hi < f.lo ∨ f.hi < g.lo) : getF (setF s f v) g = getF s g := by
  by_cases ha : g.adr = f.adr
  · unfold getF
    rw [getW_setF, if_pos ha, ← ha]
    apply bits_merge_other _ _ _ _ _ hg
    intro i h1 h2
    rw [testBit_maskOf _ _ _ hf]
    simp only [Bool.and_eq_false_iff, decide_eq_false_iff_not]
    omega
  · exact getF_setF_adr s f g v ha

/-- A field set beside the fields read: an address apart, or bits apart. -/
theorem getF_setF_ne (s : Block) (f g : Fld) (v : Nat)
    (h : (decide (g.adr ≠ f.adr) || (decide (f.lo ≤ f.hi) && decide (g.hi < 32) &&
      (decide (g.hi < f.lo) || decide (f.hi < g.lo)))) = true) : getF (setF s f v) g = getF s g := by
  simp only [Bool.or_eq_true, Bool.and_eq_true, decide_eq_true_eq] at h
  rcases h with h | ⟨⟨h1, h2⟩, h3⟩
  · exact getF_setF_adr s f g v h
  · exact getF_setF_bits s f g v h1 h2 h3

/-- A flag that is set reads as it was set. -/
theorem flag_setF_same (s : Block) (f : Fld) (v : Nat) (h : f.lo = f.hi) (h32 : f.hi < 32) :
    flag (setF s f v) f = (v % 2 != 0) := by
  unfold flag; rw [getF_setF_same s f v (by omega) h32]
  have : f.hi + 1 - f.lo = 1 := by omega
  rw [this, pow_one]

/-! ## The other ways a field is set -/

theorem setB_eq (s : Block) (f : Fld) (b : Bool) : setB s f b = setF s f (b2n b) := rfl

theorem raise_eq (s : Block) (f : Fld) :
    raise s f = setF { s with hostIf := { hwNow s with hwSet := (f.adr, maskOf f.hi f.lo) :: (hwNow s).hwSet } } f 1 := rfl

/-- A flag raised changes the registers as a plain write of 1 does. -/
theorem raise_regs (s : Block) (f : Fld) : (raise s f).regs = (setF s f 1).regs := by
  unfold raise setF putM; simp only [putA_regs]; rfl

theorem raise_act (s : Block) (f : Fld) : (raise s f).act = (setF s f 1).act := by
  rw [raise_eq]; unfold setF putM putA; dsimp only; split <;> rfl

theorem incF_eq (s : Block) (f : Fld) : incF s f = setF s f (getF s f + 1) := rfl

theorem addF_eq (s : Block) (f : Fld) (n : Nat) : addF s f n = setF s f (getF s f + n) := rfl

theorem incSat_eq (s : Block) (f : Fld) : incSat s f = setF s f (satU (f.hi + 1 - f.lo) (getF s f + 1)) := rfl

/-! ## Canonical form -/

theorem putP_canonical (s : Block) (a m v : Nat) (h : Tbl.wf resetWord s.regs = true) :
    Tbl.wf resetWord (putP s a m v).regs = true := Tbl.wf_set _ _ h

theorem putA_canonical (s : Block) (a m v : Nat) (h : Tbl.wf resetWord s.act = true) :
    Tbl.wf resetWord (putA s a m v).act = true := by
  unfold putA; split
  · exact Tbl.wf_set _ _ h
  · exact h

end Sys2Proof.Machine
end

