-- ==== Sys2Proof/Laws/Cmd.lean ====
section
/-! SUPPORT. The command path: what taking a packet, completing a command and a command's run leave alone. -/

namespace Sys2Proof.Machine

/-! ## The queue -/

/-- What a happening answers on the block, `exec` answers on the state with the queue untouched. -/
theorem onBlock_next {b t : Block} {q : List Instr} {f : Block → Out} (h : f b = .next t) :
    onBlock ⟨b, q⟩ f = .next ⟨t, q⟩ := by
  simp only [onBlock, h]

/-- A happening that answers a next state leaves the queue. -/
theorem onBlock_pending {s t : State} {f : Block → Out} (h : onBlock s f = .next t) : t.pending = s.pending := by
  unfold onBlock at h
  split at h
  · cases h; rfl
  · cases h
  · cases h

/-- An object that exists. -/
theorem withIdx_lt {n i : Nat} {r : Out} (h : i < n) : withIdx n i r = r := if_pos h

/-- An object that does not exist. -/
theorem withIdx_ge {n i : Nat} {r : Out} (h : n ≤ i) : withIdx n i r = .fault .noSuchObject :=
  if_neg (Nat.not_lt.mpr h)

/-! ## Taking a packet -/

theorem tookStep_shape (s : Block) (r : Nat) :
    tookStep s r = { s with regs := (tookStep s r).regs, act := (tookStep s r).act, cmd := (tookStep s r).cmd } := by
  unfold tookStep
  dsimp only
  split_ifs <;> simp only [incF_eq] <;> rfl

@[simp] theorem tookStep_now (s : Block) (r : Nat) : (tookStep s r).now = s.now := by
  rw [tookStep_shape]
@[simp] theorem tookStep_sysTime (s : Block) (r : Nat) : (tookStep s r).sysTime = s.sysTime := by
  rw [tookStep_shape]
@[simp] theorem tookStep_free (s : Block) (r : Nat) : (tookStep s r).free = s.free := by
  rw [tookStep_shape]
@[simp] theorem tookStep_flips (s : Block) (r : Nat) : (tookStep s r).flips = s.flips := by
  rw [tookStep_shape]
@[simp] theorem tookStep_linkQ (s : Block) (r : Nat) : (tookStep s r).linkQ = s.linkQ := by
  rw [tookStep_shape]
@[simp] theorem tookStep_strobes (s : Block) (r : Nat) : (tookStep s r).strobes = s.strobes := by
  rw [tookStep_shape]
@[simp] theorem tookStep_hostIf (s : Block) (r : Nat) : (tookStep s r).hostIf = s.hostIf := by
  rw [tookStep_shape]
@[simp] theorem tookStep_groups (s : Block) (r : Nat) : (tookStep s r).groups = s.groups := by
  rw [tookStep_shape]
@[simp] theorem tookStep_units (s : Block) (r : Nat) : (tookStep s r).units = s.units := by
  rw [tookStep_shape]
@[simp] theorem tookStep_lanes (s : Block) (r : Nat) : (tookStep s r).lanes = s.lanes := by
  rw [tookStep_shape]
@[simp] theorem tookStep_seqs (s : Block) (r : Nat) : (tookStep s r).seqs = s.seqs := by
  rw [tookStep_shape]
@[simp] theorem tookStep_sys (s : Block) (r : Nat) : (tookStep s r).sys = s.sys := by
  rw [tookStep_shape]
@[simp] theorem tookStep_fires (s : Block) (r : Nat) : (tookStep s r).fires = s.fires := by
  rw [tookStep_shape]
@[simp] theorem tookStep_event (s : Block) (r : Nat) : (tookStep s r).event = s.event := by
  rw [tookStep_shape]
@[simp] theorem tookStep_gyden (s : Block) (r : Nat) : (tookStep s r).gyden = s.gyden := by
  rw [tookStep_shape]
@[simp] theorem tookStep_tables (s : Block) (r : Nat) : (tookStep s r).tables = s.tables := by
  rw [tookStep_shape]
@[simp] theorem tookStep_mem (s : Block) (r : Nat) : (tookStep s r).mem = s.mem := by
  rw [tookStep_shape]
@[simp] theorem tookStep_dramc (s : Block) (r : Nat) : (tookStep s r).dramc = s.dramc := by
  rw [tookStep_shape]
@[simp] theorem tookStep_caps (s : Block) (r : Nat) : (tookStep s r).caps = s.caps := by
  rw [tookStep_shape]
@[simp] theorem tookStep_acq (s : Block) (r : Nat) : (tookStep s r).acq = s.acq := by
  rw [tookStep_shape]
@[simp] theorem tookStep_nvm (s : Block) (r : Nat) : (tookStep s r).nvm = s.nvm := by
  rw [tookStep_shape]
@[simp] theorem tookStep_cal (s : Block) (r : Nat) : (tookStep s r).cal = s.cal := by
  rw [tookStep_shape]
@[simp] theorem tookStep_clock (s : Block) (r : Nat) : (tookStep s r).clock = s.clock := by
  rw [tookStep_shape]
@[simp] theorem tookStep_boot (s : Block) (r : Nat) : (tookStep s r).boot = s.boot := by
  rw [tookStep_shape]
@[simp] theorem tookStep_aon (s : Block) (r : Nat) : (tookStep s r).aon = s.aon := by
  rw [tookStep_shape]

/-! What stands at HEAD of a ring is no register. -/

@[simp] theorem clearPeek_now (s : Block) (r : Nat) : (clearPeek s r).now = s.now := rfl
@[simp] theorem clearPeek_sysTime (s : Block) (r : Nat) : (clearPeek s r).sysTime = s.sysTime := rfl
@[simp] theorem clearPeek_free (s : Block) (r : Nat) : (clearPeek s r).free = s.free := rfl
@[simp] theorem clearPeek_flips (s : Block) (r : Nat) : (clearPeek s r).flips = s.flips := rfl
@[simp] theorem clearPeek_linkQ (s : Block) (r : Nat) : (clearPeek s r).linkQ = s.linkQ := rfl
@[simp] theorem clearPeek_strobes (s : Block) (r : Nat) : (clearPeek s r).strobes = s.strobes := rfl
@[simp] theorem clearPeek_hostIf (s : Block) (r : Nat) : (clearPeek s r).hostIf = s.hostIf := rfl
@[simp] theorem clearPeek_groups (s : Block) (r : Nat) : (clearPeek s r).groups = s.groups := rfl
@[simp] theorem clearPeek_units (s : Block) (r : Nat) : (clearPeek s r).units = s.units := rfl
@[simp] theorem clearPeek_lanes (s : Block) (r : Nat) : (clearPeek s r).lanes = s.lanes := rfl
@[simp] theorem clearPeek_seqs (s : Block) (r : Nat) : (clearPeek s r).seqs = s.seqs := rfl
@[simp] theorem clearPeek_sys (s : Block) (r : Nat) : (clearPeek s r).sys = s.sys := rfl
@[simp] theorem clearPeek_fires (s : Block) (r : Nat) : (clearPeek s r).fires = s.fires := rfl
@[simp] theorem clearPeek_event (s : Block) (r : Nat) : (clearPeek s r).event = s.event := rfl
@[simp] theorem clearPeek_gyden (s : Block) (r : Nat) : (clearPeek s r).gyden = s.gyden := rfl
@[simp] theorem clearPeek_tables (s : Block) (r : Nat) : (clearPeek s r).tables = s.tables := rfl
@[simp] theorem clearPeek_mem (s : Block) (r : Nat) : (clearPeek s r).mem = s.mem := rfl
@[simp] theorem clearPeek_dramc (s : Block) (r : Nat) : (clearPeek s r).dramc = s.dramc := rfl
@[simp] theorem clearPeek_caps (s : Block) (r : Nat) : (clearPeek s r).caps = s.caps := rfl
@[simp] theorem clearPeek_acq (s : Block) (r : Nat) : (clearPeek s r).acq = s.acq := rfl
@[simp] theorem clearPeek_nvm (s : Block) (r : Nat) : (clearPeek s r).nvm = s.nvm := rfl
@[simp] theorem clearPeek_cal (s : Block) (r : Nat) : (clearPeek s r).cal = s.cal := rfl
@[simp] theorem clearPeek_clock (s : Block) (r : Nat) : (clearPeek s r).clock = s.clock := rfl
@[simp] theorem clearPeek_boot (s : Block) (r : Nat) : (clearPeek s r).boot = s.boot := rfl
@[simp] theorem clearPeek_aon (s : Block) (r : Nat) : (clearPeek s r).aon = s.aon := rfl

@[simp] theorem takePacket_now (s : Block) (h : Hdr) (op : Nat) : (takePacket s h op).now = s.now := by
  simp [takePacket]
@[simp] theorem takePacket_sysTime (s : Block) (h : Hdr) (op : Nat) : (takePacket s h op).sysTime = s.sysTime := by
  simp [takePacket]
@[simp] theorem takePacket_free (s : Block) (h : Hdr) (op : Nat) : (takePacket s h op).free = s.free := by
  simp [takePacket]
@[simp] theorem takePacket_flips (s : Block) (h : Hdr) (op : Nat) : (takePacket s h op).flips = s.flips := by
  simp [takePacket]
@[simp] theorem takePacket_linkQ (s : Block) (h : Hdr) (op : Nat) : (takePacket s h op).linkQ = s.linkQ := by
  simp [takePacket]
@[simp] theorem takePacket_strobes (s : Block) (h : Hdr) (op : Nat) : (takePacket s h op).strobes = s.strobes := by
  simp [takePacket]
@[simp] theorem takePacket_hostIf (s : Block) (h : Hdr) (op : Nat) : (takePacket s h op).hostIf = s.hostIf := by
  simp [takePacket]
@[simp] theorem takePacket_groups (s : Block) (h : Hdr) (op : Nat) : (takePacket s h op).groups = s.groups := by
  simp [takePacket]
@[simp] theorem takePacket_units (s : Block) (h : Hdr) (op : Nat) : (takePacket s h op).units = s.units := by
  simp [takePacket]
@[simp] theorem takePacket_lanes (s : Block) (h : Hdr) (op : Nat) : (takePacket s h op).lanes = s.lanes := by
  simp [takePacket]
@[simp] theorem takePacket_seqs (s : Block) (h : Hdr) (op : Nat) : (takePacket s h op).seqs = s.seqs := by
  simp [takePacket]
@[simp] theorem takePacket_sys (s : Block) (h : Hdr) (op : Nat) : (takePacket s h op).sys = s.sys := by
  simp [takePacket]
@[simp] theorem takePacket_fires (s : Block) (h : Hdr) (op : Nat) : (takePacket s h op).fires = s.fires := by
  simp [takePacket]
@[simp] theorem takePacket_event (s : Block) (h : Hdr) (op : Nat) : (takePacket s h op).event = s.event := by
  simp [takePacket]
@[simp] theorem takePacket_gyden (s : Block) (h : Hdr) (op : Nat) : (takePacket s h op).gyden = s.gyden := by
  simp [takePacket]
@[simp] theorem takePacket_tables (s : Block) (h : Hdr) (op : Nat) : (takePacket s h op).tables = s.tables := by
  simp [takePacket]
@[simp] theorem takePacket_mem (s : Block) (h : Hdr) (op : Nat) : (takePacket s h op).mem = s.mem := by
  simp [takePacket]
@[simp] theorem takePacket_dramc (s : Block) (h : Hdr) (op : Nat) : (takePacket s h op).dramc = s.dramc := by
  simp [takePacket]
@[simp] theorem takePacket_caps (s : Block) (h : Hdr) (op : Nat) : (takePacket s h op).caps = s.caps := by
  simp [takePacket]
@[simp] theorem takePacket_acq (s : Block) (h : Hdr) (op : Nat) : (takePacket s h op).acq = s.acq := by
  simp [takePacket]
@[simp] theorem takePacket_nvm (s : Block) (h : Hdr) (op : Nat) : (takePacket s h op).nvm = s.nvm := by
  simp [takePacket]
@[simp] theorem takePacket_cal (s : Block) (h : Hdr) (op : Nat) : (takePacket s h op).cal = s.cal := by
  simp [takePacket]
@[simp] theorem takePacket_clock (s : Block) (h : Hdr) (op : Nat) : (takePacket s h op).clock = s.clock := by
  simp [takePacket]
@[simp] theorem takePacket_boot (s : Block) (h : Hdr) (op : Nat) : (takePacket s h op).boot = s.boot := by
  simp [takePacket]
@[simp] theorem takePacket_aon (s : Block) (h : Hdr) (op : Nat) : (takePacket s h op).aon = s.aon := by
  simp [takePacket]

/-- Taking a packet changes HOSTCMD's registers alone. -/
theorem getW_takePacket (s : Block) (h : Hdr) (op a : Nat) (hr : h.ring < 4) (ha : a < 0x1000 ∨ 0x2000 ≤ a) :
    getW (takePacket s h op) a = getW s a := by
  have key : ∀ (s : Block) (f : Fld) (v : Nat), 0x1000 ≤ f.adr → f.adr < 0x2000 →
      getW (setF s f v) a = getW s a := by
    intro s f v h1 h2
    rw [getW_setF, if_neg (by omega)]
  have hs : getW (tookStep s h.ring) a = getW s a := by
    have hc : ∀ (s : Block) (c : CmdSt), getW { s with cmd := c } a = getW s a := fun _ _ => rfl
    unfold tookStep
    dsimp only
    split_ifs <;> simp only [hc, incF_eq] <;> first | rfl | (apply key <;> decide)
  have hadr : (sqF h.ring F.HOSTCMD_SQ0_HEAD_IDX).adr = 0x104c + h.ring * 0x20 := rfl
  have hp : ∀ (s : Block) (c : CmdSt), getW { s with cmd := c } a = getW s a := fun _ _ => rfl
  unfold takePacket clearPeek
  dsimp only
  rw [key _ F.HOSTCMD_CUR_STEPS_COUNT _ (by decide) (by decide), key _ F.HOSTCMD_CUR_RING _ (by decide) (by decide),
    key _ F.HOSTCMD_CUR_TAG _ (by decide) (by decide), key _ F.HOSTCMD_CUR_OPCODE _ (by decide) (by decide),
    key _ F.HOSTCMD_CUR_VALID _ (by decide) (by decide), key _ _ _ (by omega) (by omega), hp, hp, hs]

/-- A field outside HOSTCMD reads as before a packet was taken. -/
theorem getF_takePacket (s : Block) (h : Hdr) (op : Nat) (f : Fld) (hr : h.ring < 4)
    (hf : f.adr < 0x1000 ∨ 0x2000 ≤ f.adr) : getF (takePacket s h op) f = getF s f := by
  unfold getF; rw [getW_takePacket s h op _ hr hf]

/-- Taking a packet leaves the mode. -/
theorem modeOf_takePacket (s : Block) (h : Hdr) (op : Nat) (hr : h.ring < 4) :
    modeOf (takePacket s h op) = modeOf s := by
  unfold modeOf
  rw [getF_takePacket s h op _ hr (by decide), takePacket_sys]

/-! ## Running a command -/

/-- The parameter words of a well-formed packet stand as they are. -/
theorem params_wf {h : Hdr} {p : List Word} (w : h.wf p.length = true) :
    (p ++ List.replicate 63 0).take (h.len - 1) = p := by
  simp only [Hdr.wf, Bool.and_eq_true, decide_eq_true_eq] at w
  have : h.len - 1 = p.length := by omega
  rw [this, List.take_left']
  rfl

/-- A command that passes the checks that every command passes has its own body run on the state with the packet
taken. -/
theorem runCmd_takes {s : Block} {h : Hdr} {op : Nat} {p data : List Word} {lens : Nat → Bool} {masks : List Nat}
    {body : Block → List Word → CmdRes} (t : takes s h op p lens masks = true) :
    runCmd s h op p data lens masks body = .next (finish h op p data (body (takePacket s h op) p)) := by
  simp only [takes, Bool.and_eq_true, decide_eq_true_eq, Bool.not_eq_true'] at t
  obtain ⟨⟨⟨⟨⟨⟨⟨⟨⟨hw, hready⟩, hheld⟩, hlen⟩, hflags⟩, hbits⟩, hmode⟩, hbusy⟩, hcode⟩, hstall⟩ := t
  have hp := params_wf hw
  simp only [Hdr.wf, Bool.and_eq_true, decide_eq_true_eq] at hw
  obtain ⟨⟨⟨⟨⟨hr, _⟩, _⟩, h1⟩, h64⟩, _⟩ := hw
  unfold runCmd
  rw [withIdx_lt hr]
  have hz : ¬ h.len = 0 := by omega
  have h65 : ¬ 64 < h.len := by omega
  have h8 : ¬ 8 ≤ h.flags := by omega
  simp only [hready, hheld, Bool.not_true, Bool.or_self, Bool.false_eq_true, if_false, hz, h65, decide_false,
    hmode, hlen, h8, hbits, hp, hbusy, hcode, hstall]

/-- A command always answers a next state where its ring exists. -/
theorem runCmd_next {s : Block} {h : Hdr} {op : Nat} {p data : List Word} {lens : Nat → Bool} {masks : List Nat}
    {body : Block → List Word → CmdRes} (hr : h.ring < 4) :
    ∃ t, runCmd s h op p data lens masks body = .next t := by
  unfold runCmd
  rw [withIdx_lt hr]
  split_ifs <;> exact ⟨_, rfl⟩

end Sys2Proof.Machine
end

