-- ==== Sys2Proof/Laws/Mem.lean ====
section
/-! SUPPORT. The addressed memories: every operation that writes one keeps its canonical form, and a byte reads as it was
written. -/

namespace Sys2Proof.Machine

variable {α : Type}

/-! ## Sparse tables -/

theorem Tbl.rising_filter (f : Nat × α → Bool) {m : List (Nat × α)} (h : Tbl.rising m = true) :
    Tbl.rising (m.filter f) = true := by
  induction m with
  | nil => rfl
  | cons q t ih =>
    obtain ⟨a, b⟩ := q
    have hc := Tbl.rising_cons.mp h
    rw [List.filter_cons]
    split
    · exact Tbl.rising_cons.mpr ⟨fun p hp => hc.1 p (List.mem_filter.mp hp).1, ih hc.2⟩
    · exact ih hc.2

theorem Tbl.rising_append {m n : List (Nat × α)} (hm : Tbl.rising m = true) (hn : Tbl.rising n = true)
    (h : ∀ p ∈ m, ∀ q ∈ n, p.1 < q.1) : Tbl.rising (m ++ n) = true := by
  induction m with
  | nil => exact hn
  | cons q t ih =>
    obtain ⟨a, b⟩ := q
    have hc := Tbl.rising_cons.mp hm
    refine Tbl.rising_cons.mpr ⟨fun p hp => ?_, ih hc.2 (fun p hp => h p (List.mem_cons_of_mem _ hp))⟩
    rcases List.mem_append.mp hp with hp | hp
    · exact hc.1 p hp
    · exact h (a, b) (by simp) p hp

variable [DecidableEq α]

/-- Entries taken away leave the canonical form. -/
theorem Tbl.wf_filter {d : Nat → α} {m : List (Nat × α)} (f : Nat × α → Bool) (h : Tbl.wf d m = true) :
    Tbl.wf d (m.filter f) = true := by
  simp only [Tbl.wf, Bool.and_eq_true, List.all_eq_true, decide_eq_true_eq] at h ⊢
  exact ⟨Tbl.rising_filter f h.1, fun p hp => h.2 p (List.mem_filter.mp hp).1⟩

/-- A run of writes keeps the canonical form. -/
theorem Tbl.wf_foldl {β : Type} {d : Nat → α} (k : β → Nat) (v : β → α) (l : List β) {m : List (Nat × α)}
    (h : Tbl.wf d m = true) : Tbl.wf d (l.foldl (fun m x => Tbl.set d m (k x) (v x)) m) = true := by
  induction l generalizing m with
  | nil => exact h
  | cons x t ih => exact ih (Tbl.wf_set _ _ h)

/-! ## Bytes of the window, of the host and of the DRAM -/

/-- Bytes written in a row keep the canonical form. -/
theorem putBytes_wf (l : List Byte) (a : Nat) {m : List (Nat × Byte)} (h : Tbl.wf (fun _ => (0 : Byte)) m = true) :
    Tbl.wf (fun _ => (0 : Byte)) (putBytes m a l) = true := by
  induction l generalizing m a with
  | nil => exact h
  | cons x t ih => exact ih _ (Tbl.wf_set _ _ h)

/-- A byte outside those written reads as before. -/
theorem putBytes_out (l : List Byte) (m : List (Nat × Byte)) (a c : Nat) (h : c < a ∨ a + l.length ≤ c) :
    Tbl.get (fun _ => (0 : Byte)) (putBytes m a l) c = Tbl.get (fun _ => (0 : Byte)) m c := by
  induction l generalizing m a with
  | nil => rfl
  | cons x t ih =>
    simp only [List.length_cons] at h
    rw [putBytes, ih _ _ (by omega), Tbl.get_set_ne _ _ _ (by omega)]

/-- A byte written reads back. -/
theorem putBytes_get (l : List Byte) (m : List (Nat × Byte)) (a i : Nat) (h : i < l.length) :
    Tbl.get (fun _ => (0 : Byte)) (putBytes m a l) (a + i) = l.getD i 0 := by
  induction l generalizing m a i with
  | nil => simp at h
  | cons x t ih =>
    rw [putBytes]
    cases i with
    | zero => rw [putBytes_out _ _ _ _ (by omega)]; simp
    | succ i =>
      have := ih (Tbl.set (fun _ => 0) m a x) (a + 1) i (by simpa using h)
      rw [show a + (i + 1) = a + 1 + i by omega, this]; simp

/-! ## The NOR -/

theorem programBytes_wf (l : List Byte) (a : Nat) {m : List (Nat × Byte)}
    (h : Tbl.wf (fun _ => (255 : Byte)) m = true) : Tbl.wf (fun _ => (255 : Byte)) (programBytes m a l) = true := by
  induction l generalizing m a with
  | nil => exact h
  | cons x t ih => exact ih _ (Tbl.wf_set _ _ h)

/-- A program or an erase keeps the canonical form. -/
theorem nvmEffect_wf (s : Block) (o : NvmOp) (h : Tbl.wf (fun _ => (255 : Byte)) s.nvm.bytes = true) :
    Tbl.wf (fun _ => (255 : Byte)) (nvmEffect s o).nvm.bytes = true := by
  unfold nvmEffect
  dsimp only
  split_ifs
  · exact programBytes_wf _ _ h
  · exact Tbl.wf_filter _ h
  · exact Tbl.wf_filter _ h

/-! ## The waveform DRAM -/

theorem zeroPage_wf (s : Block) (p : Nat) (h : Tbl.wf (fun _ => (0 : Byte)) s.mem.dram = true) :
    Tbl.wf (fun _ => (0 : Byte)) (zeroPage s p).mem.dram = true := Tbl.wf_filter _ h

theorem copyPage_wf (s : Block) (a b : Nat) (h : Tbl.wf (fun _ => (0 : Byte)) s.mem.dram = true) :
    Tbl.wf (fun _ => (0 : Byte)) (copyPage s a b).mem.dram = true :=
  Tbl.wf_foldl (fun x : Nat × Byte => b * 8192 + x.1 % 8192) (fun x => x.2) _ (zeroPage_wf s b h)

theorem putSegByte_wf (s : Block) (g : Seg) (o : Nat) (x : Byte) (h : Tbl.wf (fun _ => (0 : Byte)) s.mem.dram = true) :
    Tbl.wf (fun _ => (0 : Byte)) (putSegByte s g o x).mem.dram = true := by
  unfold putSegByte
  split
  · exact Tbl.wf_set _ _ h
  · exact h

theorem putSegBytes_wf (l : List Byte) (s : Block) (g : Seg) (o : Nat)
    (h : Tbl.wf (fun _ => (0 : Byte)) s.mem.dram = true) :
    Tbl.wf (fun _ => (0 : Byte)) (putSegBytes s g o l).mem.dram = true := by
  induction l generalizing s o with
  | nil => exact h
  | cons x t ih => exact ih _ _ (putSegByte_wf s g o x h)

/-- The words that DRAM_RESUME zeroes. -/
theorem zeroWords_wf (s : Block) (run : Nat) (ws : List Nat) (h : Tbl.wf (fun _ => (0 : Byte)) s.mem.dram = true) :
    Tbl.wf (fun _ => (0 : Byte)) (zeroWords s run ws).mem.dram = true := by
  unfold zeroWords forEach
  dsimp only
  induction ws generalizing s with
  | nil => exact h
  | cons w t ih => exact ih _ (putBytes_wf _ _ h)

/-! ## Steps and table banks -/

@[simp] theorem injectErr_steps (s : Block) (a : Option Nat) : (injectErr s a).mem.steps = s.mem.steps := by
  unfold injectErr
  split <;> try split
  all_goals first | rfl | (dsimp only; split_ifs <;> rfl)

@[simp] theorem noteServed_mem (s : Block) (r : Nat) : (noteServed s r).mem = s.mem := by
  unfold noteServed
  split_ifs <;> rfl

theorem stepsSome_wf (s : Block) (first : Nat) (data : List Word) (i n : Nat) (h : Tbl.wf (fun _ => 0) s.mem.steps = true) :
    Tbl.wf (fun _ => 0) (stepsSome s first data i n).mem.steps = true := by
  unfold stepsSome
  simp only [injectErr_steps, noteServed_mem]
  exact Tbl.wf_foldl (fun k => first + i + k) (fun k => stepOfData data (i + k)) _ h

theorem putTable_wf (s : Block) (a v : Nat) (h : Tbl.wf (fun _ => (0 : Word)) s.tables = true) :
    Tbl.wf (fun _ => (0 : Word)) (putTable s a v).tables = true := Tbl.wf_set _ _ h

theorem putBank_wf (s : Block) (a mask v : Nat) (h : Tbl.wf (fun _ => (0 : Word)) s.tables = true) :
    Tbl.wf (fun _ => (0 : Word)) (putBank s a mask v).tables = true := Tbl.wf_set _ _ h

theorem putImage_wf (s : Block) (u b : Nat) (x : List (Nat × Word) × List Nat)
    (h : Tbl.wf (fun _ => (0 : Word)) s.tables = true) : Tbl.wf (fun _ => (0 : Word)) (putImage s u b x).tables = true := by
  have frame : ∀ (l : List Nat) (t : Block),
      (l.foldl (fun s k => putTrim s u b k (x.2.getD k 0)) t).tables = t.tables := by
    intro l
    induction l with
    | nil => intro t; rfl
    | cons k l ih => intro t; exact ih _
  unfold putImage forEach
  rw [frame]
  exact Tbl.wf_foldl (fun w : Nat × Word => w.1 + recordBase u b 0) (fun w => w.2) _ (Tbl.wf_filter _ h)

theorem copyBank_wf (s : Block) (u a b : Nat) (h : Tbl.wf (fun _ => (0 : Word)) s.tables = true) :
    Tbl.wf (fun _ => (0 : Word)) (copyBank s u a b).tables = true := putImage_wf s u b _ h

theorem sineWords_range (s : Block) (a : Nat) : ∀ p ∈ sineWords s a, a ≤ p.1 ∧ p.1 < a + 65536 ∧ p.2 ≠ 0 := by
  intro p hp
  obtain ⟨i, hi, h⟩ := List.mem_filterMap.mp hp
  dsimp only at h
  split at h
  · cases h
  · rename_i hw
    cases h
    have := List.mem_range.mp hi
    exact ⟨by simp only []; omega, by simp only []; omega, hw⟩

theorem sineWords_rising (s : Block) (a : Nat) : Tbl.rising (sineWords s a) = true := by
  have main : ∀ (l : List Nat) (f : Nat → Word), l.Pairwise (· < ·) →
      Tbl.rising (l.filterMap (fun i => if f i = 0 then none else some (a + 4 * i, f i))) = true := by
    intro l f
    induction l with
    | nil => intro _; rfl
    | cons i t ih =>
      intro h
      have hc := List.pairwise_cons.mp h
      rw [List.filterMap_cons]
      split
      · exact ih hc.2
      · rename_i b hb
        split at hb
        · cases hb
        · cases hb
          refine Tbl.rising_cons.mpr ⟨fun p hp => ?_, ih hc.2⟩
          obtain ⟨j, hj, hp⟩ := List.mem_filterMap.mp hp
          split at hp
          · cases hp
          · cases hp
            have := hc.1 j hj
            simp only []
            omega
  exact main _ _ List.pairwise_lt_range

/-- The start-up's sine tables keep the canonical form. -/
theorem loadSine_wf (s : Block) (h : Tbl.wf (fun _ => (0 : Word)) s.tables = true) :
    Tbl.wf (fun _ => (0 : Word)) (loadSine s).tables = true := by
  have sets : ∀ (t : Block) (f : Fld) (v : Nat), (setF t f v).tables = t.tables := by
    intro t f v
    unfold setF putM putA putP
    dsimp only
    split_ifs <;> rfl
  have frame : ∀ (l : List Nat) (t : Block), (l.foldl (fun s d => setF (setF s (dieF d F.SYN_TBL_CRC_A_CRC) (bankCrc s d 0))
      (dieF d F.SYN_TBL_CRC_B_CRC) (bankCrc s d 1)) t).tables = t.tables := by
    intro l
    induction l with
    | nil => intro t; rfl
    | cons k l ih => intro t; rw [List.foldl_cons, ih, sets, sets]
  unfold loadSine forEach
  dsimp only
  rw [frame]
  have hl := Tbl.wf_filter (fun x : Nat × Word => decide (x.1 < 0x100000)) h
  simp only [Tbl.wf, Bool.and_eq_true, List.all_eq_true, decide_eq_true_eq] at hl ⊢
  have r := sineWords_range s
  have q := sineWords_rising s
  simp only [List.flatMap_cons, List.flatMap_nil, List.append_nil, sineAddr]
  refine ⟨Tbl.rising_append hl.1 (Tbl.rising_append (q _) (Tbl.rising_append (q _) (Tbl.rising_append (q _) (q _) ?_) ?_) ?_) ?_, ?_⟩
  · intro x hx y hy
    have := r _ x hx; have := r _ y hy; omega
  · intro x hx y hy
    have := r _ x hx
    rcases List.mem_append.mp hy with hy | hy
    · have := r _ y hy; omega
    · have := r _ y hy; omega
  · intro x hx y hy
    have := r _ x hx
    rcases List.mem_append.mp hy with hy | hy
    · have := r _ y hy; omega
    · rcases List.mem_append.mp hy with hy | hy
      · have := r _ y hy; omega
      · have := r _ y hy; omega
  · intro x hx y hy
    have h1 := (List.mem_filter.mp hx).2
    simp only [decide_eq_true_eq] at h1
    rcases List.mem_append.mp hy with hy | hy
    · have := r _ y hy; omega
    · rcases List.mem_append.mp hy with hy | hy
      · have := r _ y hy; omega
      · rcases List.mem_append.mp hy with hy | hy
        · have := r _ y hy; omega
        · have := r _ y hy; omega
  · intro x hx
    rcases List.mem_append.mp hx with hx | hx
    · exact hl.2 x hx
    · rcases List.mem_append.mp hx with hx | hx
      · exact (r _ x hx).2.2
      · rcases List.mem_append.mp hx with hx | hx
        · exact (r _ x hx).2.2
        · rcases List.mem_append.mp hx with hx | hx
          · exact (r _ x hx).2.2
          · exact (r _ x hx).2.2

end Sys2Proof.Machine
end

