-- ==== Sys2Proof/Tests/Slice0.lean ====
section
/-! SUPPORT. Tests: each well-formedness check refuses an ill-formed step; for every statement with hypotheses a state and
operands that meet them (`witness_<Name>`, one part per clause, at a boundary value where the clause has a range); and
small steps on small states, whose expected results stand in the spec (`test_<what>`). -/

namespace Sys2Proof.Tests

open Sys2Proof Sys2Proof.Machine

set_option maxRecDepth 40000

/-! ## Small states -/

/-- A powered part with both host links ready. -/
def upBlk : Block :=
  { Block.reset with boot := { Block.reset.boot with powered := true, spiReady := true, pcieUp := true } }

/-- The part with fields set as listed. -/
def blk (l : List (Fld × Nat)) : Block := l.foldl (fun s x => setF s x.1 x.2) upBlk

/-- The command path serves: ring 0 of 1,024 words in host memory, 64 words before TAIL, mode STANDBY; then the fields. -/
def ready (l : List (Fld × Nat)) : Block :=
  blk ([(F.GLOBAL_MODE_CUR, 1), (F.HOSTCMD_CTRL_EN, 1), (F.HOSTCMD_STATE_UE_STATE, 2), (F.HOSTCMD_SQ0_CFG_EN, 1),
    (F.HOSTCMD_SQ0_CFG_LOG2, 10), (F.HOSTCMD_SQ0_TAIL_IDX, 64)] ++ l)

/-- The header of a packet of `n` words in ring 0 with tag 7. -/
def hdr (n : Nat) : Hdr := ⟨0, 7, 0, n⟩

/-- Ring 0 in the command window, with a packet of opcode `op` and parameter words `p` at HEAD. -/
def windowed (op : Nat) (p : List Word) (l : List (Fld × Nat)) : Block :=
  let b := ready ([(F.HOSTCMD_SQ0_CFG_LOC, 1)] ++ l)
  { b with cmd := { b.cmd with window := putBytes [] 0 (wordsBytes (headerWord (hdr (p.length + 1)) op :: p)) } }

/-- The block after a step; as it was where the step stops. -/
def after (c : Instr) (b : Block) : Block :=
  match exec c ⟨b, []⟩ with
  | .next t => t.toBlock
  | _ => b

/-- A command that waits, or is in progress. -/
def jobOf (op : Nat) (ph : JobPhase) : Job := ⟨hdr 1, op, [], [], ph, 0, 0, 0, [], 0, false, 0, 0⟩

/-- The block with jobs. -/
def withJobs (s : Block) (l : List Job) : Block := { s with cmd := { s.cmd with jobs := l } }

/-! ## The machine and the command path -/

theorem witness_WellFormedStepsAnswer : (Instr.nop (hdr 64) (List.replicate 63 0)).wf = true ∧
    stops (exec (.vioLow 7) ⟨upBlk, []⟩) = false := by decide

theorem witness_QueueInvariant : (State.mk upBlk [.nop (hdr 1) [], .vioLow 7, .ringError 3 none]).wellQueued = true := by decide

theorem witness_MissingObjectsFault : stops (exec (.ringRead 16) ⟨upBlk, []⟩) = true ∧
    stops (exec (.ringRead 15) ⟨upBlk, []⟩) = false ∧ stops (exec (.modOvl ⟨64, true⟩) ⟨upBlk, []⟩) = true ∧
    stops (exec (.vioLow 8) ⟨upBlk, []⟩) = true ∧ stops (exec (.stepWdog 4) ⟨upBlk, []⟩) = true := by decide

theorem witness_GeneralCommands :
    takes (ready []) (hdr 64) 0x00 (List.replicate 63 0xFFFFFFFF) (fun _ => true) [] = true ∧
    (let b := windowed 0x01 [0xFFC0, 0] []
     takes b (hdr 3) 0x01 [0xFFC0, 0] (· == 3) [0xFFFFFFFF, 0xFFFFFFFF] = true ∧
      destOk (takePacket b (hdr 3) 0x01) (hdr 3) (pw64 [0xFFC0, 0] 1) 64 = true) ∧
    (let b := windowed 0x01 [0xFFC1, 0] []
     takes b (hdr 3) 0x01 [0xFFC1, 0] (· == 3) [0xFFFFFFFF, 0xFFFFFFFF] = true ∧
      destOk (takePacket b (hdr 3) 0x01) (hdr 3) (pw64 [0xFFC1, 0] 1) 64 = false) ∧
    (let b := windowed 0x02 [0x3FFFC, 16, 0xFFC0, 0] []
     takes b (hdr 5) 0x02 [0x3FFFC, 16, 0xFFC0, 0] (· == 5) [0x3FFFC, 0x1F, 0xFFFFFFFF, 0xFFFFFFFF] = true ∧
      pb [0x3FFFC, 16, 0xFFC0, 0] 2 4 0 = 16 ∧
      destOk (takePacket b (hdr 5) 0x02) (hdr 5) (pw64 [0x3FFFC, 16, 0xFFC0, 0] 3) (4 * 16) = true) ∧
    (takes (ready []) (hdr 1) 0x09 [] (· == 1) [] = true ∧ takes (ready []) (hdr 1) 0xF1 [] (· == 1) [] = true ∧
      modeOf (ready []) ≠ 0) ∧
    safeAtOnce (ready [(F.HOSTCMD_STATE_UE_STATE, 3)]) (hdr 1) = true ∧ safeAtOnce (ready []) (hdr 1) = false ∧
    (let b := windowed 0x02 [0, 16, 0xFFC1, 0] []
     takes b (hdr 5) 0x02 [0, 16, 0xFFC1, 0] (· == 5) [0x3FFFC, 0x1F, 0xFFFFFFFF, 0xFFFFFFFF] = true ∧ quiet b = true ∧
      destOk (takePacket b (hdr 5) 0x02) (hdr 5) (pw64 [0, 16, 0xFFC1, 0] 3) (4 * 16) = false) := by decide

/-- R285, R286: a packet that the window does not hold at HEAD is not taken; the one it holds is. -/
theorem test_window_packet :
    getF (after (.modeQuery (hdr 1) []) (windowed 0x08 [] [])) F.HOSTCMD_SQ0_HEAD_IDX = 0 ∧
    getF (after (.modeQuery (hdr 1) []) (windowed 0x09 [] [])) F.HOSTCMD_SQ0_HEAD_IDX = 1 := by decide

theorem witness_TakenPacketFrame :
    getF (takePacket (ready []) ⟨3, 255, 0, 64⟩ 255) F.HOSTCMD_CUR_TAG = 255 ∧ (3 < 4 ∧ 255 < 256) := by decide

/-- A completion ring of 16 entries in host memory, the last of which is free. -/
def cqBlk : Block := ready [(F.HOSTCMD_CQ_CFG_EN, 1), (F.HOSTCMD_CQ_CFG_LOG2, 4), (F.HOSTCMD_CQ_BASE_LO_ADDR, 0x1000),
  (F.HOSTCMD_CQ_HEAD_IDX, 1), (F.HOSTCMD_CQ_TAIL_IDX, 15)]

theorem witness_CompletionPosted : cqRoom cqBlk = true ∧ cqBlk.cmd.held = [] ∧ flag cqBlk F.HOSTCMD_CQ_CFG_LOC = false ∧
    (⟨0, 7, 0, 1⟩ : Hdr).flags.testBit 2 = false := by decide

/-- R289, R290: an OK completion of a NOP stands at 16 × 15 above the base, with PHASE 1 on the ring's first pass, and
TAIL wraps to 0. -/
theorem test_entry_at_tail :
    Tbl.get (fun _ => (0 : Byte)) (after (.nop (hdr 1) []) cqBlk).cmd.hostMem (0x1000 + 240) = 7 ∧
    Tbl.get (fun _ => (0 : Byte)) (after (.nop (hdr 1) []) cqBlk).cmd.hostMem (0x1000 + 243) = 0x80 ∧
    getF (after (.nop (hdr 1) []) cqBlk) F.HOSTCMD_CQ_TAIL_IDX = 0 ∧
    getF (after (.nop (hdr 1) []) cqBlk) F.HOSTCMD_SQ0_HEAD_IDX = 1 := by decide

theorem witness_CompletionHeld : cqRoom (countCmd (ready []) ⟨hdr 1, 0, 0, 0, 1, 0⟩) = false ∧ (hdr 1).flags.testBit 2 = false ∧
    (⟨0, 7, 4, 1⟩ : Hdr).flags.testBit 2 = true := by decide

theorem witness_ErrorsAreCounted :
    getF (countCmd (ready []) ⟨⟨3, 255, 0, 1⟩, 255, 255, 0, 1, 0⟩) F.HOSTCMD_LAST_ERR_STATUS = 255 ∧
    getF (countCmd (ready []) ⟨⟨3, 255, 0, 1⟩, 255, 255, 0, 1, 0⟩) F.HOSTCMD_ERR_COUNT_COUNT = 1 ∧
    getF (countCmd (ready []) ⟨hdr 1, 0, Sts.partially, 0, 1, 0⟩) F.HOSTCMD_ERR_COUNT_COUNT = 0 := by decide

theorem witness_BadPacketsRefused : (⟨1, 7, 0, 1⟩ : Hdr).wf 0 = true ∧ packetReady (ready []) ⟨1, 7, 0, 1⟩ = false ∧
    (packetHeld (ready []) (hdr 64) 255 [] = true ∧ packetHeld (windowed 0x08 [1] []) (hdr 2) 0x08 [2] = false) ∧
    (let b := ready [(F.GLOBAL_MODE_CHANGING, 1)]
     packetReady b (hdr 2) = true ∧ packetHeld b (hdr 2) 0x08 [2] = true ∧ modeBusy b (hdr 2) 0x08 [2] = true) ∧
    (packetReady (ready []) (hdr 2) = true ∧ packetHeld (ready []) (hdr 2) 0x09 [0] = true ∧
      modeBusy (ready []) (hdr 2) 0x09 [0] = false ∧ (hdr 2).wf 1 = true) ∧
    (⟨0, 7, 8, 2⟩ : Hdr).wf 1 = true ∧ packetReady (ready []) ⟨0, 7, 8, 2⟩ = true ∧
    reservedClear [2] [1] = false ∧ (reservedCode 0x69 [3] = true ∧ reservedCode 0x69 [2] = false) ∧
    (let b := ready [(F.GLOBAL_MODE_CUR, 5)]
     packetReady b (hdr 64) = true ∧ packetHeld b (hdr 64) 255 [] = true ∧ modeBusy b (hdr 64) 255 [] = false ∧ modeOf b = 5) ∧
    (let b := ready [(F.DRAMC_STATE_DSTATE, 1)]
     packetReady b (hdr 3) = true ∧ packetHeld b (hdr 3) Op.segOpen [1, 0] = true ∧ modeOf b ≠ 5 ∧
      dramStalls b Op.segOpen [1, 0] = true ∧ dramStalls (ready []) Op.segOpen [1, 0] = false ∧
      reservedCode Op.segOpen [1, 0] = false) := by decide

/-- R287: a packet with a reserved bit set completes BAD_PARAM with STEPS 0; the packet is taken. -/
theorem test_reserved_bit : getF (after (.modeQuery (hdr 2) [0]) (ready [])) F.HOSTCMD_LAST_ERR_STATUS = 0x11 ∧
    getF (after (.dramFreq (hdr 2) [4]) (ready [])) F.HOSTCMD_LAST_ERR_STATUS = 0x12 := by decide

theorem witness_RingErrors : ueServes (ready []) = true ∧ flag (ready []) (sqF 0 F.HOSTCMD_SQ0_CFG_EN) = true ∧
    sqAvail (ready []) 0 ≠ 0 ∧ inProgress (ready []) 0 = none ∧ bits 0x00000041 15 8 = 0 ∧ 64 < bits 0x00004100 15 8 ∧
    bits 0x00004000 15 8 = 64 ∧ headerHeld (ready []) 0 0x41 = true ∧ headerHeld (windowed 1 [] []) 0 0x41 = false := by decide

/-- The block with a command in progress, BACKGROUND ring 3 with work, and an entry whose interrupt waits. -/
def pathBlk : Block :=
  let s := withJobs (ready [(F.HOSTCMD_ARB_BG_MIN, 1), (F.NVM_STATE_BUSY, 1), (sqF 3 F.HOSTCMD_SQ0_CFG_EN, 1), (sqF 3 F.HOSTCMD_SQ0_CFG_LOG2, 6),
    (sqF 3 F.HOSTCMD_SQ0_TAIL_IDX, 1), (F.HOSTCMD_IRQ_CFG_COAL_US, 1)]) [jobOf Op.segCreate .inProgress]
  { s with now := 1000, cmd := { s.cmd with coalCnt := 1 } }

theorem witness_CommandPathHappenings :
    (inProgress pathBlk 0 = some (jobOf Op.segCreate .inProgress) ∧ steppedOps.contains Op.segCreate = true) ∧
    (let b := windowed 0x09 [] []
     inProgress b 0 = none ∧ nextHeader b 0 = some 0x09070100 ∧ bits 0x09070100 15 8 = 1 ∧
      packetReady b ⟨0, bits 0x09070100 23 16, bits 0x09070100 7 0, bits 0x09070100 15 8⟩ = true) ∧
    (ringWork pathBlk 3 = true ∧ getF pathBlk F.HOSTCMD_ARB_BG_MIN ≠ 0 ∧
      pathBlk.cmd.bgLast + getF pathBlk F.HOSTCMD_ARB_BG_MIN * 1000 ≤ pathBlk.now) ∧
    (getF pathBlk F.HOSTCMD_IRQ_CFG_COAL_US ≠ 0 ∧ pathBlk.cmd.coalCnt ≠ 0 ∧
      pathBlk.cmd.coalFrom + getF pathBlk F.HOSTCMD_IRQ_CFG_COAL_US * 1000 ≤ pathBlk.now) ∧
    (mayStep pathBlk 0 = true ∧ flag pathBlk F.HOSTCMD_CTRL_EN = true ∧
      getF pathBlk F.HOSTCMD_STATE_UE_STATE = 2 ∧ dramStalled pathBlk = false) ∧
    (let b := windowed 0x80 [] []
     inProgress b 0 = none ∧ nextHeader b 0 = some 0x80070100 ∧
      assignedOps.contains (bits 0x80070100 31 24) = false ∧ bits 0x80070100 15 8 = 1 ∧ mayStep b 0 = true ∧
      flag b F.HOSTCMD_CTRL_EN = true ∧ getF b F.HOSTCMD_STATE_UE_STATE = 2 ∧ quiet b = true ∧
      packetReady b ⟨0, bits 0x80070100 23 16, bits 0x80070100 7 0, bits 0x80070100 15 8⟩ = true) := by decide

theorem witness_nothing_settles : settleJobs pathBlk = pathBlk ∧ settleJobs (windowed 0x80 [] []) = windowed 0x80 [] [] :=
  ⟨rfl, rfl⟩

theorem witness_AbortEffect :
    takes (ready []) (hdr 2) 0xF0 [0xFF03] (· == 2) [0x1FF03] = true ∧ modeOf (ready []) ≠ 0 ∧ pb [0xFF03] 1 16 16 = 0 ∧
    (let b := withJobs (ready []) [jobOf 0x23 .waiting]
     takes b (hdr 2) 0xF0 [0x700] (· == 2) [0x1FF03] = true ∧ abortNames (takePacket b (hdr 2) 0xF0) [0x700] = [jobOf 0x23 .waiting] ∧
      abortable 0x23 = true) ∧
    (let b := withJobs (ready []) [jobOf 0x22 .waiting]
     takes b (hdr 2) 0xF0 [0x700] (· == 2) [0x1FF03] = true ∧ abortNames (takePacket b (hdr 2) 0xF0) [0x700] = [jobOf 0x22 .waiting] ∧
      abortable 0x22 = false) ∧
    (takes (ready []) (hdr 2) 0xF0 (AbortPacket.words ⟨[0x10000], []⟩) (· == 2) [0x1FF03] = true ∧ pb [0x10000] 1 16 16 = 1) := by decide

/-! ## Registers -/

/-- No link is ready before the supplies are. -/
def downBlk : Block := Block.reset

/-- The first access of a cycle has it. -/
theorem witness_first_access : atSlot upBlk .pcie = upBlk ∧ atSlot upBlk .spi = upBlk := ⟨rfl, rfl⟩

theorem witness_KeyLock : linkReady upBlk .pcie = true ∧ linkReady upBlk .spi = true ∧
    flag (after (.key .spi 0xC35A) upBlk) (keyF .spi) = true ∧
    getF (after (.key .spi 1) upBlk) F.GLOBAL_KEYFAIL_COUNT = 1 ∧
    getF (after (.key .spi 0) upBlk) F.GLOBAL_KEYFAIL_COUNT = 0 := by decide

theorem witness_LockedWrites : (regDef R.POWER_PKG_CAP).any (fun d => d.key != 0) = true ∧ flag upBlk (keyF .pcie) = false ∧
    R.POWER_PKG_CAP < 2 ^ 18 ∧ (18000 ^^^ 18001) &&& 65535 ≠ 0 ∧ (18000 ^^^ 18000) &&& 65535 = 0 := by decide

/-- The PCIe master's lock is open. -/
def openBlk : Block := blk [(keyF .pcie, 1)]

theorem witness_OpenLockUsedOnce : flag openBlk (keyF .pcie) = true ∧ R.POWER_PKG_CAP ≠ R.GLOBAL_CTRL ∧
    (regDef R.GLOBAL_TMR_SEL).any (fun d => d.key == 0) = true := by decide

/-- R316: mask bit 17 lets bit 1 of CTRL in, bit 0 without its mask bit stays. -/
theorem witness_MaskedWrite : linkReady upBlk .pcie = true ∧ quiet (atSlot upBlk .pcie) = true ∧
    bits (getW (after (.registerWrite .pcie R.GLOBAL_CTRL 0x00020003 15) upBlk) R.GLOBAL_CTRL) 15 0 =
      bits (getW upBlk R.GLOBAL_CTRL) 15 0 ||| 2 := by decide

/-- Reserved accesses are to be shown. -/
def rsvdBlk : Block := blk [(F.GLOBAL_CTRL_RSVD_ERR, 1)]

theorem witness_ReservedLocations : linkReady rsvdBlk .pcie = true ∧ quiet (atSlot rsvdBlk .pcie) = true ∧
    accessStalls rsvdBlk .pcie 0x3FFFC = false ∧ (0x40000 ≤ 0x4FFFC ∧ 0x4FFFC < 0x50000) ∧ 0x3FFFC % 4 = 0 ∧ 0x3FFFC < 0x40000 ∧
    regDef 0x3FFFC = none ∧ flag rsvdBlk F.GLOBAL_CTRL_RSVD_ERR = true ∧ flag upBlk F.GLOBAL_CTRL_RSVD_ERR = false ∧
    flag (after (.reservedRead .pcie 0x3FFFC) rsvdBlk) F.GLOBAL_STATUS_RSVD_ACCESS = true ∧
    getF (after (.registerWrite .pcie R.POWER_PKG_CAP 0 14) rsvdBlk) F.GLOBAL_RSVD_LAST_WADDR = R.POWER_PKG_CAP / 4 ∧
    lastRead (after (.reservedRead .pcie 0x4FFFC) (after (.registerWrite .pcie 0x4FFFC 0x81000009 15) upBlk)) .pcie = 0x81000009 := by
  decide

theorem witness_LatchingReads : linkReady upBlk .pcie = true ∧ quiet (atSlot upBlk .pcie) = true ∧ (regDef 8).isSome = true ∧ latchSet 8 = [12] ∧ (regDef 12).isSome = true ∧ latchSet 12 = [] ∧
    lowOf 12 = some 8 ∧ getF upBlk (tagF .pcie) ≠ 8 / 4 ∧
    getF (after (.latchingLowRead .pcie 8) upBlk) (tagF .pcie) = 8 / 4 := by decide

theorem witness_LinkDownAccesses : linkReady downBlk .pcie = false ∧ linkReady downBlk .spi = false ∧ quiet downBlk = true ∧
    Master.pcie.reaches 0x3FFFC = true ∧ Master.spi.reaches 0xFFFFFC = true := by decide

theorem witness_ShadowStrobes : linkReady upBlk .pcie = true ∧
    (regDef (unitBase 0 + R.P_OFFSET)).any (fun d => d.rw == d.buf && d.buf != 0 && d.key == 0 && d.w1c == 0) = true ∧
    inRegion (unitBase 0 + R.P_OFFSET) = true ∧ quiet (atSlot upBlk .pcie) = true ∧ linkGone upBlk (regionOf (blockUnit (unitBase 0 + R.P_OFFSET))) = false := by decide

theorem witness_offset_unruled : ruleMask (countAccess upBlk .pcie) (unitBase 0 + R.P_OFFSET) 0 5 268435455 =
    (countAccess upBlk .pcie, 268435455) := rfl

theorem witness_HostRings : linkReady upBlk .spi = true ∧ (getP upBlk (0x1048 + 0x20 * 3)).toNat.testBit 0 = false ∧
    bits 0x00000E03 12 8 = 14 ∧ (0x00000E03 : Word).getLsbD 0 = true ∧ (0x00000E03 : Word).getLsbD 1 = true ∧
    getF (after (.sqCfgWrite .spi 3 0x0E03) upBlk) (sqF 3 F.HOSTCMD_SQ0_CFG_LOG2) = 14 ∧
    (getP upBlk R.HOSTCMD_CQ_CFG).toNat.testBit 0 = false ∧ bits 0x00000C01 12 8 = 12 ∧ upBlk.cmd.held = [] ∧
    flag (after (.cqCfgWrite .spi 0x0C01) upBlk) F.HOSTCMD_CQ_CFG_EN = true ∧
    (getP (ready []) (0x1048 + 0x20 * 0)).toNat.testBit 0 = true ∧
    flag (after (.sqCfgWrite .spi 0 0x0A00) (ready [])) (sqF 0 F.HOSTCMD_SQ0_CFG_EN) = false := by decide

/-- Table 13-6: a TAIL written in the cycle in which EN is cleared is ignored; in one master's next cycle (R313) it is not. -/
theorem test_tail_at_disable :
    getF (after (.sqCfgWrite .spi 0 0x0A00) (after (.sqTailWrite .pcie 0 70) (ready []))) F.HOSTCMD_SQ0_TAIL_IDX = 64 ∧
    getF (after (.sqCfgWrite .pcie 0 0x0A00) (after (.sqTailWrite .pcie 0 70) (ready []))) F.HOSTCMD_SQ0_TAIL_IDX = 70 := by
  decide

/-- Table 13-6: a CQ_HEAD written counts from the next cycle. -/
theorem test_cq_head_next_cycle :
    cqHead (after (.cqHeadWrite .pcie 5) (ready [])) = 0 ∧
    cqHead (idleTick (after (.cqHeadWrite .pcie 5) (ready []))) = 5 := by decide

/-- Both pairs fetching; then idle: a word of a target that cannot be written, and one of the inactive correction bank of
unit 0. -/
def busyBlk : Block := blk [(indF 0 F.GLOBAL_IND_STAT_BUSY, 1), (indF 1 F.GLOBAL_IND_STAT_BUSY, 1)]
def roBlk : Block := blk [(F.GLOBAL_IND_ADDR_TGT, 3), (F.GLOBAL_IND_ADDR_ADDR, 0x4FC / 4)]
def bankBlk : Block := blk [(F.GLOBAL_IND_ADDR_TGT, 5), (F.GLOBAL_IND_ADDR_ADDR, 0x800 / 4)]

theorem witness_IndirectAccess : linkReady busyBlk .spi = true ∧ bits 0x30000002 1 0 = 2 ∧ bits 0x30000003 1 0 = 3 ∧
    (awake busyBlk = true ∧ indStalls busyBlk 0 = false ∧ indStalls busyBlk 1 = false) ∧
    (let c := indArrive (countAccess busyBlk .pcie) 0
     accessStalls busyBlk .pcie R.GLOBAL_IND_DATA = false ∧ indFault c (indTgt c 0) (indAdr c 0) = 0) ∧
    flag busyBlk (indF 0 F.GLOBAL_IND_STAT_BUSY) = true ∧ flag busyBlk (indF 1 F.GLOBAL_IND_STAT_BUSY) = true ∧
    (flag roBlk (indF 0 F.GLOBAL_IND_STAT_BUSY) = false ∧ accessStalls roBlk .pcie R.GLOBAL_IND_DATA = false ∧
      indFault (atSlot roBlk .pcie) (indTgt roBlk 0) (indAdr roBlk 0) = 0) ∧
    (quiet (atSlot roBlk .pcie) = true ∧ indTgt roBlk 0 = 3 ∧ indAdr roBlk 0 = 0x4FC) ∧
    (indTgt bankBlk 0 = 5 ∧ calBank bankBlk 0 = 0 ∧ (∃ k < calSlots 0, ∃ o < 0x100,
      bankPlace (indAdr bankBlk 0) = some (0, 1 - calBank bankBlk 0, k, o)) ∧ calPend bankBlk 0 = none) := by decide

theorem witness_RouterSelectors : linkReady upBlk .pcie = true ∧
    (let b := blk [(F.EVENT_RT_SEL_SINK, 159), (⟨R.EVENT_RT_SRC, 31, 0⟩, 0xBFBFBFBF)]
     getF b F.EVENT_RT_SEL_SINK < 160 ∧ (∀ i < 4, bits (getW b R.EVENT_RT_SRC) (8 * i + 7) (8 * i) < 192)) ∧
    160 ≤ getF (blk [(F.EVENT_RT_SEL_SINK, 160)]) F.EVENT_RT_SEL_SINK ∧
    (∃ i < 4, 192 ≤ bits (getW (blk [(⟨R.EVENT_RT_SRC, 31, 0⟩, 0xC0000000)]) R.EVENT_RT_SRC) (8 * i + 7) (8 * i)) := by decide

/-- Segment 5 of one page, its last word in the window. -/
def winBlk : Block :=
  let b := blk [(F.MMU_WIN_SEG_ID, 5), (F.MMU_WIN_OFS_OFS, 8188 / 4)]
  { b with mem := { b.mem with segs := [(5, { st := 3, pages := 1 })] } }

theorem witness_SnapshotsAndWindow : linkReady upBlk .pcie = true ∧ accessStalls winBlk .pcie R.MMU_WIN_DATA = false ∧
    quiet (atSlot winBlk .pcie) = true ∧ winBlk.mem.errs = [] ∧ winOfs winBlk = 8188 ∧
    winReads (atSlot winBlk .pcie) = true := by decide

/-- A triplicated word selected, the lock open. -/
def tmrBlk : Block := blk [(keyF .pcie, 1), (F.GLOBAL_TMR_SEL_WADDR, R.POWER_PKG_CAP / 4)]

theorem witness_KeyedGoBits :
    (flag tmrBlk (keyF .pcie) = true ∧ bits 0x00000F20 5 4 = 2 ∧ tmrBlk.flips = [] ∧ flag tmrBlk F.GLOBAL_TMR_SEL_SHADOW = false ∧
      (regDef (4 * getF tmrBlk F.GLOBAL_TMR_SEL_WADDR)).any (fun d => d.tmr.testBit (bits 0x00000F20 12 8)) = true) ∧
    (flag upBlk (keyF .pcie) = false ∧ linkReady upBlk .pcie = true) ∧
    (bits 0x08000000 27 24 = 8 ∧ patrolObject (bits 0x08000000 27 24) (bits 0x08000000 21 0) = true) := by decide

/-- The clock of the board: VAON on, the alarm at the present second, a load for the next second's successor. -/
def rtcBlk : Block :=
  let s := blk [(F.AON_CTRL_ALARM_EN, 1), (keyF .pcie, 1)]
  { s with aon := { on := true, setIn := 2, load := 2 ^ 48 - 1 } }

theorem witness_ClockOfTheBoard : linkReady rtcBlk .pcie = true ∧ flag rtcBlk (keyF .pcie) = true ∧ rtcBlk.aon.setIn ≠ 0 ∧
    rtcSec rtcBlk + 1 ≠ rtcBlk.aon.setIn ∧ rtcBlk.aon.load < 2 ^ 48 ∧ rtcBlk.aon.on = true ∧
    flag rtcBlk F.AON_CTRL_ALARM_EN = true ∧ rtcSec rtcBlk = alarmSec rtcBlk := by decide

theorem witness_OtherStrobes : linkReady upBlk .pcie = true ∧ capRuns upBlk 3 = false ∧ bits 0x00000010 4 0 = 16 ∧
    (let b := blk [(tF 3 F.TRACK_STATE_ESTATE, 2)]
     capRuns b 3 = true ∧ (cap b 3).tick ≤ (nextEdge b + capPeriod b 3 - 1) / capPeriod b 3 ∧ (cap b 3).forces = []) ∧
    (let w : LinkWrite := ⟨3, unitBase 0 + R.P_OFFSET, 5, 0xF, 0⟩
     ({ upBlk with linkQ := [w] } : Block).linkQ.find? (fun x => x.rgn == 3) = some w ∧ w.adr % 0x100 ≠ 0 ∧
      twoFold w.adr = true) := by decide


/-! ## Modes, admission, PATROL -/

/-- A block in another mode, with a change in course. -/
def inMode (m : Nat) (l : List (Fld × Nat)) : Block := ready ([(F.GLOBAL_MODE_CUR, m)] ++ l)

theorem witness_ModeSetEffect :
    (let b := inMode 1 [(F.GLOBAL_MODE_CHANGING, 1)]
     (hdr 3).wf 2 = true ∧ packetReady b (hdr 3) = true ∧ packetHeld b (hdr 3) Op.modeSet [2, 0] = true ∧
      modeBusy b (hdr 3) Op.modeSet [2, 0] = true) ∧
    takes (ready []) (hdr 3) 0x08 [5, 0xFFFF] (· == 3) [0x107, 0xFFFF] = true ∧ pb [5, 0xFFFF] 1 8 8 = 0 ∧
    pb [5, 0xFFFF] 1 2 0 = 5 ∧ modePair 1 5 = true ∧ refusals (takePacket (ready []) (hdr 3) Op.modeSet) 5 = [] ∧
    (takes (ready []) (hdr 3) 0x08 [0x102, 0] (· == 3) [0x107, 0xFFFF] = true ∧ pb [0x102, 0] 1 8 8 = 1 ∧
      flag (ready []) F.GYDEN_CONFIG_EN = false) ∧
    (takes (inMode 2 []) (hdr 3) 0x08 [5, 0] (· == 3) [0x107, 0xFFFF] = true ∧ modeOf (inMode 2 []) = 2 ∧ modePair 2 5 = false) ∧
    (takes (ready []) (hdr 3) 0x08 [1, 0] (· == 3) [0x107, 0xFFFF] = true ∧ modeOf (ready []) = pb [1, 0] 1 2 0) ∧
    (takes (ready []) (hdr 3) 0x08 [4, 0] (· == 3) [0x107, 0xFFFF] = true ∧ modeOf (ready []) ≠ 4) ∧
    (let b := ready [(qF 15 F.SEQ_STATE_SSTATE, 3)]
     let t := takePacket b (hdr 3) Op.modeSet
     takes b (hdr 3) 0x08 [5, 0] (· == 3) [0x107, 0xFFFF] = true ∧ leastRefusal (refusals t 5) = some (2, 0x10F) ∧
      (startChange t 5 false 0).sys.change.any (fun c => allReported c) = true) ∧
    (let b := ready [(qF 15 F.SEQ_STATE_SSTATE, 3), (lostF 0, 1)]
     let t := takePacket b (hdr 3) Op.modeSet
     takes b (hdr 3) 0x08 [5, 0] (· == 3) [0x107, 0xFFFF] = true ∧ (leastRefusal (refusals t 5)).isSome = true ∧
      (startChange t 5 false 0).sys.change.any (fun c => !allReported c) = true) := by decide

/-- A change to `target` of the CDIE and region 0, both reported. -/
def change (target : Nat) (refusal : Option (Nat × Nat)) (edge : Option Nat) (ready : List Nat) : ModeChange :=
  ⟨target, false, 1000, [0x300, 0x200], ready, refusal, edge, [], 0, 0⟩

/-- A block with that change. -/
def changing (c : ModeChange) : Block :=
  let s := ready [(F.GLOBAL_MODE_CHANGING, 1), (F.GLOBAL_MODE_TGT, c.target)]
  { s with now := 1000, sysTime := 100000, sys := { s.sys with change := some c } }

theorem witness_AbandonedChange :
    (changing (change 7 none none [])).sys.change = some (change 7 none none []) ∧
    (∀ j ∈ (changing (change 7 none none [])).cmd.jobs, j.op ≠ Op.modeSet) ∧
    getF (abandonMode (changing (change 7 none none [])) 7 65535 0x20) F.POWER_MODE_LAST_DETAIL = 65535 := by decide

theorem witness_ModeChangeHappenings :
    (allReported (change 2 (some (2, 0)) none [0x300, 0x200]) = true) ∧
    (allReported (change 2 none none [0x300, 0x200]) = true ∧ refusals (changing (change 2 none none [0x300, 0x200])) 2 = []) ∧
    (let c := { change 2 none none [0x300, 0x200] with system := true }
     let s := setF (changing c) F.GYDEN_CONFIG_MASTER 1
     allReported c = true ∧ flag s F.GYDEN_CONFIG_MASTER = true ∧ s.gyden.commit = 0 ∧ s.sys.change = some c) ∧
    (allReported (change 2 none none [0x300]) = false ∧
      (change 2 none none [0x300]).due ≤ (changing (change 2 none none [0x300])).now) ∧
    (partyOk (.unit 63) = true ∧ partyOk (.node 15) = true ∧ partyOk (.region 3) = true ∧ partyOk (.lanes 7) = true) ∧
    (let c := change 2 none (some 0) [0x300, 0x200]
     canApply (changing c) c 0 0x300 = true ∧ canApply (changing c) c 0 0x201 = false) ∧
    (let c := { change 2 none (some 0) [0x300, 0x200] with applied := [0x200, 0x300] }
     c.parties.all (fun x => c.applied.contains x) = true ∧ (∀ j ∈ (changing c).cmd.jobs, j.op ≠ Op.modeSet)) := by decide

theorem witness_SafePin : flag (ready [(F.GLOBAL_PINS_SAFE, 1)]) F.GLOBAL_PINS_SAFE = true ∧ flag (ready []) F.GLOBAL_PINS_SAFE = false ∧
    (let b := ready [(F.GYDEN_CONFIG_EN, 1), (F.GYDEN_STATE_LINK, 2), (F.POWER_CTRL_SAFE_ACCEPT, 1)]
     flag b F.GYDEN_CONFIG_EN = true ∧ getF b F.GYDEN_STATE_LINK = 2 ∧ flag b F.POWER_CTRL_SAFE_ACCEPT = true) ∧
    (let c := { change 2 none none [0x300] with system := true }
     let b := setF (setF (setF (changing c) F.GYDEN_CONFIG_EN 1) F.GYDEN_STATE_LINK 2) F.POWER_CTRL_SAFE_ACCEPT 0
     flag b F.GYDEN_CONFIG_EN = true ∧ getF b F.GYDEN_STATE_LINK = 2 ∧ flag b F.POWER_CTRL_SAFE_ACCEPT = false ∧
      b.sys.change = some c ∧ c.system = true ∧ c.edge = none ∧ (ready []).sys.change = none) ∧
    flag (ready []) F.GYDEN_CONFIG_EN = false ∧ modeOf (inMode 4 []) = 4 ∧ modeOf (inMode 0 []) = 0 ∧
    modeOf (inMode 5 []) = 5 := by decide

/-- R353: SAFE_N low takes the package to SAFE. -/
theorem test_safe_n : modeOf (after .safeNAssert (inMode 2 [])) = 4 ∧
    getF (after .safeNAssert (inMode 2 [])) F.POWER_SAFE_CAUSE_CAUSE = 3 := by decide

theorem witness_ResumeFromSafe :
    (let b := inMode 4 [(F.GLOBAL_PINS_SAFE, 1)]
     takes b (hdr 2) 0xF2 [0x100] (· == 2) [0x10F] = true ∧ pb [0x100] 1 8 8 = 1 ∧ modeOf b = 4 ∧ resumeUnmet b ≠ 0) ∧
    (let b := inMode 4 [(F.PATROL_RGN_STATE_SAFE, 8)]
     takes b (hdr 2) 0xF2 [8] (· == 2) [0x10F] = true ∧
      ((bitList (pb [8] 1 3 0) 4).filter (fun i => (getF b F.PATROL_RGN_STATE_SAFE).testBit i)).find? (fun i => !rgnHealthy b i) =
        some 3) ∧
    (takes (inMode 4 []) (hdr 2) 0xF2 [8] (· == 2) [0x10F] = true ∧
      (bitList (pb [8] 1 3 0) 4).filter (fun i => (getF (inMode 4 []) F.PATROL_RGN_STATE_SAFE).testBit i) = []) ∧
    (let b : Block := { inMode 4 [(F.PATROL_RGN_STATE_SAFE, 1)] with now := 10000000 }
     takes b (hdr 2) 0xF2 [1] (· == 2) [0x10F] = true ∧
      (bitList (pb [1] 1 3 0) 4).filter (fun i => (getF b F.PATROL_RGN_STATE_SAFE).testBit i) = [0] ∧
      (∀ i ∈ [0], rgnHealthy b i = true)) := by decide

theorem witness_DieLinks : flag (ready [(lostF 3, 1)]) (lostF 3) = true ∧ flag (ready []) (lostF 3) = false := by decide

theorem witness_PatrolCounting : (ready []).sys.windows = [] ∧ 2 ≤ getF (ready []) (clsF 1 F.PATROL_CLS0_CFG_THRESH) ∧
    2 ≤ getF (ready []) (clsF 8 F.PATROL_CLS0_CFG_THRESH) ∧
    (let w : Window := ⟨1, 63, 0, 1000000, 2, 1⟩
     let v : Window := ⟨1, 63, 0, 1000000, 3, 1⟩
     (ready []).now < w.opened + w.win ∧ w.thresh ≤ w.count + 1 ∧ v.count + 1 < v.thresh) := by decide

theorem witness_UpkeepHappenings : awake (ready [(F.GLOBAL_TMR_SCRUB_EN, 1)]) = true ∧
    flag (ready [(F.GLOBAL_TMR_SCRUB_EN, 1)]) F.GLOBAL_TMR_SCRUB_EN = true ∧
    flag (ready [(F.GLOBAL_TMR_SCRUB_EN, 0)]) F.GLOBAL_TMR_SCRUB_EN = false ∧ supplyLow (ready []) 9 = false ∧
    supplyLow { ready [] with boot := { (ready []).boot with lowTill := [(9, 5)] } } 9 = true ∧ getF (ready []) F.HOSTCMD_STATE_UE_STATE = 2 ∧
    (∀ r ∈ [(⟨1, 0, [], .cmd 0, 0, 7, 1001⟩ : PacReq)], 1000 < r.due) ∧
    (∃ r ∈ [(⟨1, 0, [], .cmd 0, 0, 7, 1000⟩ : PacReq)], r.due ≤ 1000) := by decide

/-- The parameters of a PAC_RESERVE of 2,200 mW on ledger 0 for handle 7, and of one of unit 47's current range. -/
def resv : List Word := [0x7007F, 2200, 0]
def resvU : List Word := [0x32F, 0, 0]

/-- The requests that they make of block `s`, and the block whose handle asks. -/
def resvReq (s : Block) : PacReq := ⟨1, ledgerIdx 0, [(0, 2200)], .handle 7, 0, 1, reserveDue (takePacket s (hdr 4) Op.pacReserve) resv⟩
def resvBlk (s : Block) : Block := setHandle (takePacket s (hdr 4) Op.pacReserve) 7 ⟨1, false, 0, 2200⟩
def unitReq (s : Block) : PacReq :=
  let t := takePacket s (hdr 4) Op.pacReserve
  unitRequest t (hdr 4) 47 3 47 (reserveDue t resvU)

theorem witness_PowerAdmission : modeOf (ready []) ≠ 0 ∧ pb resv 1 6 0 = 0x7F ∧ pb resv 2 15 0 = 2200 ∧ pb resv 1 18 16 = 7 ∧
    takes (ready []) (hdr 4) 0x78 resv (· == 4) [0x370F7F, 0x7FFFF, 0xFFFF] = true ∧ (handle (ready []) 7).st = 0 ∧
    takes (ready []) (hdr 4) 0x78 [0x7007F, 2201, 0] (· == 4) [0x370F7F, 0x7FFFF, 0xFFFF] = true ∧
    (handle (setHandle (ready []) 7 ⟨1, false, 0, 1⟩) 7).st ≠ 0 ∧
    (takePacket (ready []) (hdr 4) Op.pacReserve).cmd.cur = 1 ∧
    pacAnswer (resvBlk (ready [])) (resvReq (ready [])) false = .grant ∧
    pacAnswer (resvBlk (ready [(F.POWER_PKG_RSV_TOTAL.at 16, 1), (F.POWER_PKG_RSV_SAFETY.at 16, 1)])) (resvReq (ready [])) false =
      .deny ∧
    pacAnswer (resvBlk (ready [(F.POWER_PKG_RSV_TOTAL.at 16, 1)])) (resvReq (ready [])) false = .queue := by decide

theorem witness_PowerAdmission_units :
    takes (ready []) (hdr 4) 0x78 resvU (· == 4) [0x370F7F, 0x7FFFF, 0xFFFF] = true ∧ pb resvU 1 6 0 = 47 ∧
    grantNeed (takePacket (ready []) (hdr 4) Op.pacReserve) 47 3 ≠ 0 ∧
    grantNeed (setUnit (ready []) 47 { unit (ready []) 47 with grant := 40 }) 47 3 = 0 ∧
    pacAnswer (takePacket (ready []) (hdr 4) Op.pacReserve) (unitReq (ready [])) false = .grant ∧
    pacAnswer (takePacket (ready [(F.POWER_PKG_RSV_TOTAL.at 28, 2200), (F.POWER_PKG_RSV_SAFETY.at 28, 2200)]) (hdr 4) Op.pacReserve)
      (unitReq (ready [])) false = .deny ∧
    pacAnswer (takePacket (ready [(F.POWER_PKG_RSV_TOTAL.at 28, 2200)]) (hdr 4) Op.pacReserve) (unitReq (ready [])) false =
      .queue := by decide

theorem witness_PowerAdmission_release :
    (takes (ready []) (hdr 2) 0x79 [0x7007F] (· == 2) [0x7007F] = true ∧
      queuedReserve (takePacket (ready []) (hdr 2) 0x79) (.handle 7) = none ∧
      (handle (setHandle (ready []) 7 ⟨2, false, 0, 2200⟩) 7).st = 2 ∧ (handle (ready []) 7).st ≠ 2) ∧
    (let r : PacReq := ⟨1, ledgerIdx 0, [(0, 2200)], .handle 7, 0, 0, 9⟩
     queuedReserve (setQueue (withJobs (ready []) [jobOf Op.pacReserve .waiting]) [r]) (.handle 7) = some r) ∧
    (takes (ready []) (hdr 2) 0x79 [47] (· == 2) [0x7007F] = true ∧
      queuedReserve (takePacket (ready []) (hdr 2) 0x79) (.unit 47) = none ∧ (unit (ready []) 47).grant = 0 ∧
      (let b := setUnit (ready []) 47 { unit (ready []) 47 with grant := 100 }
       (unit b 47).grant ≠ 0 ∧ grantNeeded b 47 = false) ∧
      (let b := setUnit (ready [(uF 47 F.P_RANGE_SEL, 3)]) 47 { unit (ready []) 47 with grant := 100 }
       (unit b 47).grant ≠ 0 ∧ grantNeeded b 47 = true)) := by decide

/-- R360: a granted reservation of 2,200 mW stands on its region's, its die's and the package's ledger. -/
theorem test_reserve : (let t := after (.pacReserve (hdr 4) resv) (ready [])
    [ledgerTotal t 0, ledgerTotal t 1, ledgerTotal t 4, ledgerTotal t 7]) = [2200, 0, 2200, 2200] := by decide

/-! ## Segment memory -/

/-- A block with segments. -/
def withSegs (s : Block) (l : List (Nat × Seg)) : Block := { s with mem := { s.mem with segs := l } }

/-- A one-page segment of 256 frames of one value of four bytes, at page `v`, in state `st`. -/
def seg1 (st v : Nat) : Seg := { st := st, na := 1, len := 256, vpn := v, pages := 1 }

theorem witness_SegmentStates :
    (takes (ready []) (hdr 4) 0x10 [0xFFFF, 0x100, 0] (· == 4) [0x3FFFF, 0xF7F03, 0xFFFFFFFF] = true ∧ createBad 0 0 1 0 0 = true ∧
      dramBad (takePacket (ready []) (hdr 4) 0x10) = false) ∧
    (takes (ready []) (hdr 4) 0x10 [0xFFFF, 0x100, 256] (· == 4) [0x3FFFF, 0xF7F03, 0xFFFFFFFF] = true ∧
      createBad 0 0 1 0 256 = false ∧ (seg (withSegs (ready []) [(0xFFFF, seg1 2 0)]) 0xFFFF).st ≠ 0 ∧
      (seg (ready []) 0xFFFF).st = 0 ∧ 0xFFFF ∉ (ready []).mem.freeing ∧ pb [0xFFFF, 0x100, 256] 1 17 17 = 0 ∧
      vFit (withSegs (ready []) [(0, { seg1 2 0 with pages := vPages - 1 })]) (pagesOf (segSize (seg1 1 0))) = some (vPages - 1) ∧
      vFit (withSegs (ready []) [(0, { seg1 2 0 with pages := vPages })]) (pagesOf (segSize (seg1 1 0))) = none) ∧
    (takes (ready []) (hdr 2) 0x12 [5] (· == 2) [0xFFFF] = true ∧ dramBad (takePacket (ready []) (hdr 2) 0x12) = false ∧
      liftOpen (ready []) 5 [1, 2, 3] = false ∧ (seg (withSegs (ready []) [(5, seg1 4 0)]) 5).st = 4 ∧
      (seg (withSegs (ready []) [(5, seg1 1 0)]) 5).st = 1 ∧ (seg (ready []) 5).st = 0) ∧
    (dramBad (takePacket (ready []) (hdr 2) 0x11) = false ∧ (seg (ready []) 5).st = 0 ∧
      (let b := withSegs (ready []) [(5, { seg1 2 0 with pin := 1 })]
       (seg b 5).st = 2 ∧ (seg b 5).member = false ∧ (seg b 5).pin ≠ 0) ∧
      (let b := withSegs (ready []) [(5, seg1 2 0)]
       takes b (hdr 2) 0x11 [5] (· == 2) [0xFFFF] = true ∧ (seg b 5).st = 2 ∧ (seg b 5).member = false ∧ (seg b 5).pin = 0 ∧
        mappedVpns b 5 = [] ∧ b.mem.move = none ∧ (∀ c < 8, (lift b c).st = 0) ∧ b.sys.retire = [] ∧
        compactJob (takePacket b (hdr 2) 0x11) = none)) ∧
    (let b := withSegs (ready []) [(5, seg1 2 0)]
     takes b (hdr 4) 0x13 [5, 0, 1] (· == 4) [0x1FFFF, 0xFFFFFFFF, 0xFFFFFFFF] = true ∧ dramBad (takePacket b (hdr 4) 0x13) = false ∧
      pb [5, 0, 1] 1 16 16 = 0 ∧ pw [5, 0, 1] 2 + pw [5, 0, 1] 3 = (seg b 5).pages ∧
      promised (takePacket b (hdr 4) 0x13) ≤ freePages (takePacket b (hdr 4) 0x13)) := by decide

/-- Two mapped writable segments, and a ring packet that names them. -/
def ringBlk : Block :=
  let s := withSegs (ready []) [(1, seg1 1 0), (2, seg1 1 1), (3, seg1 1 2)]
  { s with mem := { s.mem with ptes := [(0, some ⟨8192, 1, false⟩), (1, some ⟨8193, 2, false⟩), (2, some ⟨8194, 3, false⟩)] } }
def ringPkt : List Word := [0x00020009, 0x00020001, 3]

theorem witness_RingsAndMoves :
    (takes ringBlk (hdr 4) 0x14 ringPkt (fun n => decide (2 ≤ n)) [0x1FFFFFF] = true ∧ dramBad (takePacket ringBlk (hdr 4) 0x14) = false ∧
      ringWords (takePacket ringBlk (hdr 4) 0x14) (hdr 4) ringPkt [] = some [0x00020001, 3] ∧
      (ringIds [0x00020001, 3]).take 3 = [1, 2, 3] ∧ pb ringPkt 1 23 16 + 1 = 3 ∧ (seg ringBlk 9).st = 0 ∧ 9 ∉ ringBlk.mem.freeing ∧
      [1, 2, 3].Nodup ∧ (∀ m ∈ [1, 2, 3], memberBad (takePacket ringBlk (hdr 4) 0x14) (seg ringBlk 1) m = false) ∧
      memberBad (takePacket (ready []) (hdr 4) 0x14) (seg ringBlk 1) 1 = true) ∧
    (let b := ready [(F.POWER_LIM_CDIE_CDIE, 99)]
     takes b (hdr 2) 0x16 [1] (· == 2) [0x1FFFF] = true ∧ dramBad (takePacket b (hdr 2) 0x16) = false ∧
      pacAnswer (takePacket b (hdr 2) 0x16) ⟨0, 110, [(6, 100)], .cmd Op.segCompact, 0, 7,
        b.now + toCmd (takePacket b (hdr 2) 0x16)⟩ false = .deny ∧ (∀ j ∈ b.cmd.jobs, j.op ≠ Op.segCompact)) ∧
    dramBad ringBlk = false ∧ ringBlk.mem.move = none ∧
    (let b := { withSegs (ready []) [(65535, { seg1 2 0 with lc := 1 })] with
       seqs := Tbl.set (fun _ => ({} : SeqSt)) [] 15 { pins := [65535] } }
     65535 ∈ (seqr b 15).pins ∧ cachedFor b 15 65535 = true ∧ cachedFor b 15 0 = false) := by decide

/-- A move of segment 1's page to page 9,000, the old page holding a byte. -/
def moveBlk : Block :=
  { ringBlk with mem := { ringBlk.mem with move := some ⟨0, 9000, false, 0⟩, dram := [(8192 * 8192 + 8191, 0xA5)] } }

theorem witness_FinishedMove : moveBlk.mem.move = some ⟨0, 9000, false, 0⟩ ∧ pte moveBlk 0 = some ⟨8192, 1, false⟩ ∧
    8192 ∉ moveBlk.sys.retire ∧ 9000 ≠ 8192 ∧ Tbl.wf (fun _ => (0 : Byte)) moveBlk.mem.dram = true ∧
    moveBlk.sys.retire = [] ∧ ({ moveBlk with sys := { moveBlk.sys with retire := [8193] } } : Block).sys.retire ≠ [] := by decide

/-- A descriptor of 64 bytes at the start of segment 1, the last of its list. -/
def liftDesc : List Word := [1, 1, 0, 64, 0, 0, 0, 0]

/-- Channel 7 at the descriptor's address, and in the states of the clauses. -/
def liftBlk (c : LiftCh) (st : Nat) : Block :=
  let s := setLift (withSegs (ready [(F.HOSTCMD_SQ0_CFG_LOC, 0)]) [(1, seg1 st 0)]) 7 c
  { s with mem := { s.mem with ptes := [(0, some ⟨8192, 1, false⟩)] } }

theorem witness_LiftEngine :
    (let b := liftBlk {} 1
     takes b (hdr 4) 0x15 [7, 0x1000, 0] (· == 4) [0x307, 0xFFFFFFFF, 0xFFFFFFFF] = true ∧ modeOf b ≠ 0 ∧
      dramBad (takePacket b (hdr 4) 0x15) = false ∧ inWindow (takePacket b (hdr 4) 0x15) 0 = false ∧ pb [7, 0x1000, 0] 1 2 0 = 7 ∧
      (∀ j ∈ b.cmd.jobs, j.op ≠ Op.liftSubmit) ∧ pb [7, 0x1000, 0] 1 9 8 = 0 ∧ (lift b 7).st = 0 ∧ pb [0x107, 0, 0] 1 9 8 = 1 ∧
      takes b (hdr 4) 0x15 [0x107, 0, 0] (· == 4) [0x307, 0xFFFFFFFF, 0xFFFFFFFF] = true) ∧
    (let b := liftBlk { st := 1, addr := 0x1000 } 1
     (lift b 7).st = 1 ∧ (lift b 7).desc = [] ∧ liftDesc.length = 8 ∧ b.boot.pcieUp = true ∧ dramBad b = false) ∧
    (let y : LiftCh := { st := 1, addr := 0x1000, desc := liftDesc, seg := 1, data := [] }
     ldBad { y with addr := 0x1010 } = true ∧ ldBad y = false ∧ (seg (liftBlk {} 0) (ldSeg y)).st = 0 ∧
      (seg (liftBlk {} 1) (ldSeg y)).st = 1 ∧ ldOfs y + ldLen y ≤ segSize (seg (liftBlk {} 1) (ldSeg y)) ∧
      ldOfs { y with desc := [1, 1, 960, 64, 0, 0, 0, 0] } + 64 = segSize (seg (liftBlk {} 2) 1) ∧ (seg (liftBlk {} 2) 1).st = 2) ∧
    (let x : LiftCh := { st := 1, addr := 0x1000, desc := liftDesc, seg := 1, pos := 64 }
     let w : LiftCh := { x with desc := [0, 1, 0, 64, 0, 0, 0x2000, 0] }
     x.st = 1 ∧ x.desc ≠ [] ∧ ldLen x = x.pos ∧ ldSeal x = false ∧ ldLast x = true ∧ ldLast w = false) ∧
    (let x : LiftCh := { st := 2, addr := 0x1000, desc := liftDesc, seg := 1 }
     (lift (liftBlk x 4) 7).st = 2 ∧ (seg (liftBlk x 4) (ldSeg (lift (liftBlk x 4) 7))).st = 4) := by decide

/-- R98: SEG_CREATE takes the lowest free virtual pages. -/
theorem test_seg_create :
    (seg (after (.segCreate (hdr 4) [9, 0x100, 256]) (withSegs (ready []) [(1, seg1 2 0)])) 9).vpn = 1 := by decide

/-! ## Sequencers -/

/-- The RUN-mode block with group 15 of unit 0 at 800 ns, segment 1 SEALED and mapped, and step 0 that plays it. -/
def seqBlk (step : Nat) (q : SeqSt) (l : List (Fld × Nat)) : Block :=
  let s := ready ([(F.GLOBAL_MODE_CUR, 2), (uF 0 F.P_STATE_IN_GROUP, 1), (uF 0 F.P_STATE_GROUP, 15)] ++ l)
  let s := setGroup s 15 { defined := true, mask := 1 }
  let s := { s with sysTime := 10000000, mem := { s.mem with
    segs := [(1, seg1 2 0)], ptes := [(0, some ⟨8192, 1, false⟩)], steps := [(0, step)] } }
  setSeq s 15 q

/-- A step of segment 1 with LOOP `k` and NEXT 0, and its END, JEN and GSRC bits. -/
def stepW (k : Nat) (en jen : Bool) (gsrc : Nat) : Nat := 1 + k * 2 ^ 16 + b2n jen * 2 ^ 117 + gsrc * 2 ^ 120 + b2n en * 2 ^ 124

/-- Sequencer 15 running: its next frame has come. -/
def running (q : SeqSt) (step : Nat) : Block := seqBlk step { q with played := true } [(qF 15 F.SEQ_STATE_SSTATE, 3)]

/-- A pass of 256 frames from frame 0, at frame `f`. -/
def passAt (f : Nat) : SeqSt := { mode := 1, seg := 1, len := 256, frame := f }

theorem witness_SequencerCommands :
    (let p : List Word := [0x0F, 4096, 0, 0x80000000, 0]
     let b := ready []
     takes b (hdr 6) 0x20 p (· == 6) [0x10F, 0x1FFFF, 0xFFFFFFFF, 0xFFFFFFFF, 0xFF] = true ∧ pb p 2 16 0 = 4096 ∧ pw64 p 3 ≠ 0 ∧
      pb p 1 8 8 = 0 ∧ (group b 15).defined = false ∧ group b 15 = {} ∧
      (let g : Group := { defined := true, div := 4096, mask := pw64 p 3 }
       let t := takePacket b (hdr 6) 0x20
       (∀ u ∈ groupMembers g, groupOf t u = none) ∧ twoRates t 15 g = false ∧ (∀ u ∈ groupMembers g, calNamed t u = false)) ∧
      getF (ready [(qF 15 F.SEQ_STATE_SSTATE, 2)]) (qF 15 F.SEQ_STATE_SSTATE) ≠ 0) ∧
    (let p : List Word := [0xFFFFF, 1, 1, 0, 0, 0x10000000]
     let b := ready []
     takes b (hdr 7) 0x21 p (fun k => decide (5 ≤ k)) [0x10FFFFF, 0x1FFFFF] = true ∧ dramBad (takePacket b (hdr 7) 0x21) = false ∧
      pb p 1 24 24 = 0 ∧ pb p 1 19 0 + pb p 2 20 0 = 1048576 ∧ p.length = 2 + 4 * pb p 2 20 0 ∧
      (∀ k < 16, getF b (qF k F.SEQ_STATE_SSTATE) = 0) ∧ stBad (stepOfData (p.drop 2) 0) = false) ∧
    (let b := seqBlk (stepW 1 true false 0) {} []
     let t := takePacket b (hdr 2) 0x22
     let x := disarm t 15
     takes b (hdr 2) 0x22 [15] (· == 2) [0xF] = true ∧ getF b (qF 15 F.SEQ_STATE_SSTATE) = 0 ∧ dramBad t = false ∧ stepsBusy t 15 = false ∧
      (seqr b 15).admitted = false ∧ getF x (qF 15 F.SEQ_WBASE_STEP) ≤ getF x (qF 15 F.SEQ_START_STEP) ∧
      getF x (qF 15 F.SEQ_START_STEP) ≤ getF x (qF 15 F.SEQ_WLIMIT_STEP) ∧ (group x 15).mask ≠ 0 ∧
      (∀ u ∈ members x 15, calNamed x u = false) ∧
      (∀ i ∈ reachable x 15, ∀ j ∈ stepLinks (stepAt x i), getF x (qF 15 F.SEQ_WBASE_STEP) ≤ j ∧ j ≤ getF x (qF 15 F.SEQ_WLIMIT_STEP)) ∧
      (armIds x 15).flatMap (fun i => (segsOf x i).map (fun g => ((seg x i).st == 7, g))) = [(false, 1)] ∧
      formatBad x 15 1 = false ∧ pinBad x false 1 = false ∧ stepEmpty x (getF x (qF 15 F.SEQ_START_STEP)) = false ∧
      popCount (group x 15).mask 64 ≤ 20) ∧
    (let b := seqBlk 0 {} [(qF 15 F.SEQ_STATE_SSTATE, 2)]
     takes b (hdr 2) 0x23 [0x8000] (· == 2) [0xFFFF] = true ∧ modeOf b = 2 ∧ pb [0x8000] 1 15 0 ≠ 0 ∧ bitList (pb [0x8000] 1 15 0) 16 = [15] ∧
      getF b (qF 15 F.SEQ_STATE_SSTATE) = 2 ∧ getF (seqBlk 0 {} []) (qF 15 F.SEQ_STATE_SSTATE) ≠ 2) ∧
    (takes (running (passAt 1) 0) (hdr 2) 0x24 [0x120F] (· == 2) [0x130F] = true ∧ pb [0x120F] 1 9 8 = 2 ∧
      getF (running (passAt 1) 0) (qF 15 F.SEQ_STATE_SSTATE) = 3 ∧ getF (seqBlk 0 {} []) (qF 15 F.SEQ_STATE_SSTATE) < 2 ∧
      getF (seqBlk 0 {} [(qF 15 F.SEQ_STATE_SSTATE, 4)]) (qF 15 F.SEQ_STATE_SSTATE) = 4 ∧ pb [0x120F] 1 12 12 = 1) ∧
    (let b := running (passAt 1) (stepW 0 false true 0)
     takes b (hdr 2) 0x25 [0xF] (· == 2) [0x30F] = true ∧ (seqr b 15).latches = [] ∧ stJen (stepAt b (curStep b 15)) = true ∧
      stJin (stepAt b (curStep b 15)) = pb [0xF] 1 9 8 ∧ stJin (stepAt b (curStep b 15)) ≠ pb [0x30F] 1 9 8) := by decide

/-- R145: the immediate stop of a running sequencer waits for its frame; R130: a start of an armed one is frame 0 on the
group's grid 5,000 ns or more after the edge. -/
theorem test_seq_start :
    getF (after (.seqStart (hdr 2) [0x8000]) (seqBlk 0 {} [(qF 15 F.SEQ_STATE_SSTATE, 2)])) (qF 15 F.SEQ_STATE_SSTATE) = 3 ∧
    ((seqr (after (.seqStart (hdr 2) [0x8000]) (seqBlk 0 {} [(qF 15 F.SEQ_STATE_SSTATE, 2)])) 15).startAt.map (· % 800)) = some 0 := by
  decide

/-- A set latch of input 3. -/
def latch3 (f : Nat) : JumpLatch := ⟨0, f, 0, true, 0, false, false⟩

theorem witness_SequencerPasses :
    (let x : SeqSt := { startAt := some 10000000 }
     let b := seqBlk 0 x [(qF 15 F.SEQ_STATE_SSTATE, 3)]
     (seqr b 15).startAt = some 10000000 ∧ getF b (qF 15 F.SEQ_STATE_SSTATE) = 3 ∧ x.played = false ∧ 10000000 ≤ b.sysTime ∧
      stopHere x = false ∧ (∀ a, ({} : SeqSt).startAt = some a → b.sysTime < a)) ∧
    (let b := running (passAt 192) (stepW 1 false false 0)
     seqDue b 15 = true ∧ (seqr b 15).mode = 1 ∧ (seqr b 15).readDone = false ∧ (seqr b 15).frame = decisionFrame (seqr b 15)) ∧
    (let x : SeqSt := { passAt 193 with readDone := true, latches := [(3, latch3 193)] }
     let y : SeqSt := { passAt 193 with readDone := true, latches := [(3, latch3 192)] }
     seqDue (running x 0) 15 = true ∧ x.frame = decisionFrame x + 1 ∧ passStop x = false ∧ x.decided = false ∧ x.cut = none ∧
      (∀ l ∈ x.latches, x.frame ≤ l.2.frame) ∧ seqDue (running y 0) 15 = true ∧ y.frame = decisionFrame y + 1 ∧
      passStop y = false ∧ (latch3 192).frame < y.frame ∧ (latch3 192).late = false) ∧
    (let x : SeqSt := { passAt 256 with decided := true }
     seqDue (running x 0) 15 = true ∧ x.frame = x.s + x.len ∧ x.cut = none ∧ x.succ = none ∧ stLoop (stepW 0 false false 0) = 0 ∧
      (let c := incF (running x (stepW 1 true false 0)) (qF 15 F.SEQ_PASS_COUNT)
       stLoop (stepW 1 true false 0) = 1 ∧ 1 ≤ getF c (qF 15 F.SEQ_PASS_COUNT) ∧ stEnd (stepW 1 true false 0) = true ∧
        stEnd (stepW 1 false false 0) = false) ∧
      ({ x with succ := some ⟨0, true, false, 0, 255, false⟩ } : SeqSt).succ = some ⟨0, true, false, 0, 255, false⟩) ∧
    (let x : SeqSt := { passAt 100 with cut := some 100, latches := [(3, latch3 99)] }
     let b := running x (stepW 1 false false 0)
     seqDue b 15 = true ∧ x.cut = some x.frame ∧ (passAt 100).cut ≠ some 100 ∧ passStop x = false ∧
      ((seqr (decide' b 15 100 false true) 15).succ.map (fun y => y.step)) = some 0) ∧
    seqDue (seqBlk 0 {} []) 15 = false := by decide

theorem witness_SequencerWaits :
    (let x : SeqSt := { mode := 3, frame := 300, waitFrom := 256, succ := some ⟨1048575, false, true, 0, 255, false⟩, release := some 300 }
     seqDue (running x 0) 15 = true ∧ releaseHere (running x 0) 15 = true ∧
      releaseHere (running { x with release := none } 0) 15 = false ∧ seqDue (running { x with release := none } 0) 15 = true) ∧
    (let x : SeqSt := { mode := 5, frame := 320, holdNext := 320, succ := some ⟨0, false, false, 0, 255, false⟩ }
     let b := running x (stepW 1 false false 0)
     seqDue b 15 = true ∧ x.held = 0 ∧ x.release = none ∧ x.frame = x.holdNext ∧ (seg b (stepSegment b 0)).st ≠ 5 ∧
      (seg (withSegs b [(1, seg1 5 0)]) (stepSegment b 0)).st = 5 ∧
      seqDue (running { x with release := some 320 } 0) 15 = true) ∧
    (let y : SeqStop := ⟨false, some 300, 7, 0, false⟩
     let x : SeqSt := { passAt 300 with stop := some y }
     getF (running x 0) (qF 15 F.SEQ_STATE_SSTATE) = 3 ∧ stopHere x = true ∧ bt (running x 0) 15 300 ≤ (running x 0).sysTime ∧
      y.disarm = false ∧ y.cause < 8 ∧ stopHere (passAt 299) = false) ∧
    (let w := stepW 1 false false 0 + 255 * 2 ^ 102
     let x : SeqSt := { passAt 0 with played := true }
     let b : Block := { running x w with sysTime := 0 }
     let far : Block := { setSeq b 15 { x with t0 := 5001 } with sysTime := 0 }
     fixedEntry b 15 = some (0, 0) ∧ stCidx (stepAt b 0) ≠ 0 ∧ (seqr b 15).carved ≠ some 0 ∧ bt b 15 0 ≤ b.sysTime + 5000 ∧
      fixedEntry far 15 = some (0, 0) ∧ far.sysTime + 5000 < bt far 15 0) ∧
    (let x : SeqSt := { played := true, admitted := true }
     (seqr (running x 0) 15).t0 + 10000000 ≤ (running x 0).sysTime ∧
      ({ running x 0 with sysTime := 9999999 } : Block).sysTime < x.t0 + 10000000) := by decide

/-! ## Units and lanes -/

/-- The RUN-mode block with unit 63 in group 15, which is armed, and the unit in output state `o`. -/
def unitBlk (o : Nat) (x : UnitSt) : Block :=
  let s := ready [(F.GLOBAL_MODE_CUR, 2), (uF 63 F.P_STATE_IN_GROUP, 1), (uF 63 F.P_STATE_GROUP, 15), (uF 63 F.P_STATE_OSTATE, o),
    (qF 15 F.SEQ_STATE_SSTATE, 2)]
  setUnit (setGroup s 15 { defined := true, mask := 2 ^ 63 }) 63 x

theorem witness_UnitCommands :
    (modeOf (ready []) ≠ 0 ∧ (ready []).cal.run = none) ∧
    (let p : List Word := [63, 0x8, 5]
     takes (ready []) (hdr 4) 0x30 p (fun n => decide (4 ≤ n) && n % 2 == 0) [0x7F] = true ∧ configPairs (p.drop 1) = [(8, 5)] ∧
      unitCodeBad 63 8 (configWord (takePacket (ready []) (hdr 4) 0x30) 63 8 5) = false ∧
      unitCodeBad 95 0x38 (configWord (takePacket (ready []) (hdr 4) 0x30) 95 0x38 5) = false ∧
      takes (ready []) (hdr 4) 0x30 [103, 8, 5] (fun n => decide (4 ≤ n) && n % 2 == 0) [0x7F] = true) ∧
    (let t := fun (p : List Word) => takes (ready []) (hdr 4) 0x30 p (fun n => decide (4 ≤ n) && n % 2 == 0) [0x7F]
     let bad := fun (p : List Word) => (configPairs (p.drop 1)).any (fun w => decide (0x100 ≤ w.1) || w.1 % 4 != 0 ||
        (decide (pb p 1 6 0 < 64) && w.1 == R.P_RANGE))
     let c : Block := { ready [] with cal := { (ready []).cal with run := some { p := [0, 0x80000000, 0x80000000, 0] } } }
     t [63, 0x100, 5] = true ∧ bad [63, 0x100, 5] = true ∧ bad [63, 0xFC, 5] = false ∧ bad [63, 6, 5] = true ∧
      bad [63, 4, 5] = true ∧ bad [95, 4, 5] = false ∧ t [95, 0, 3] = true ∧ nextEdge (ready []) = (ready []).sysTime ∧
      nextEdge { ready [] with sysTime := 1 } ≠ 1 ∧ calNamed (ready []) 95 = false ∧
      takes c (hdr 4) 0x30 [63, 8, 5] (fun n => decide (4 ≤ n) && n % 2 == 0) [0x7F] = true ∧ calNamed c 63 = true ∧
      calNamed c 62 = false) ∧
    (let b := unitBlk 1 { floor := 1000 }
     takes b (hdr 4) 0x31 [0, 0x80000000, 9] (· == 4) [0xFFFFFFFF, 0xFFFFFFFF, 0xF] = true ∧
      bitList (pw64 [0, 0x80000000, 9] 1) 64 = [63] ∧ rangeOk 63 9 = true ∧ grantNeed b 63 9 = 0) ∧
    (let b := ready [(F.POWER_PKG_RSV_TOTAL.at 28, 2200), (F.POWER_PKG_RSV_SAFETY.at 28, 2200)]
     let t := takePacket b (hdr 4) 0x31
     takes b (hdr 4) 0x31 [0, 0x80000000, 9] (· == 4) [0xFFFFFFFF, 0xFFFFFFFF, 0xF] = true ∧ grantNeed b 63 9 ≠ 0 ∧
      pacAnswer t (unitRequest t (hdr 4) 63 9 63 (b.now + toUnit t)) false = .deny) ∧
    (let b := unitBlk 1 { floor := 1000 }
     let p : List Word := [0, 0x80000000]
     takes b (hdr 3) 0x32 p (· == 3) [0xFFFFFFFF, 0xFFFFFFFF] = true ∧
      takes b (hdr 3) 0x33 p (· == 3) [0xFFFFFFFF, 0xFFFFFFFF] = true ∧ bitList (pw64 p 1) 64 = [63] ∧ modeOf b = 2 ∧
      enableBad (takePacket b (hdr 3) 0x32) 63 = false ∧ grantNeed b 63 (selRange b 63) = 0 ∧
      modeOf (ready []) = 1 ∧ disableBad (takePacket b (hdr 3) 0x33) 63 = true ∧
      disableBad (takePacket (unitBlk 2 {}) (hdr 3) 0x33) 63 = false ∧ (∀ j ∈ b.cmd.jobs, j.op ≠ Op.unitEnable)) ∧
    (let p : List Word := [0x3FFF0001, 1, 0, 0x800000]
     takes (ready []) (hdr 5) 0x34 p (fun n => decide (4 ≤ n)) [0xFFFF000F, 0xFFFF, 1] = true ∧ pb p 1 3 0 = 1 ∧ pb p 3 0 0 = 0 ∧
      p.length = 3 + pb p 2 15 0 ∧ pb p 1 31 16 + pb p 2 15 0 = 16384 ∧ bits (0x800000 : Word) 31 24 = 0 ∧
      dieBusy (takePacket (ready []) (hdr 5) 0x34) 1 = false ∧
      dieBusy (takePacket (ready [(dieF 1 F.SYN_TBL_STAT_SWAP_PEND, 1)]) (hdr 5) 0x34) 1 = true) ∧
    (takes (ready []) (hdr 2) 0x35 [3] (· == 2) [3] = true ∧ pb [3] 1 1 0 ≠ 0 ∧ bitList (pb [3] 1 1 0) 2 = [0, 1] ∧
      (∀ k ∈ [0, 1], dieBusy (takePacket (ready []) (hdr 2) 0x35) k = false) ∧
      (∃ k ∈ [0, 1], dieBusy (takePacket (ready [(dieF 1 F.SYN_TBL_STAT_SWAP_PEND, 1)]) (hdr 2) 0x35) k = true)) := by decide

/-- R300: UNIT_CONFIG of OFFSET waits as a strobe for the next f_M edge and 4,000 ns more. -/
theorem test_unit_config :
    (after (.unitConfig (hdr 4) [63, 0x8, 5]) { ready [] with sysTime := 26 }).strobes.map (fun x => (x.tgt, x.due)) = [(63, 4050)] := by
  decide

theorem witness_PlaybackAndRanges :
    (let b := running (passAt 100) (stepW 1 false false 0)
     (group b 15).defined = true ∧ seqDue b 15 = true ∧ frameClear b 15 = true ∧
      (let f := running (passAt 200000) 0
       seqPlays f 15 = true ∧ f.sysTime < bt f 15 (seqr f 15).frame)) ∧
    groupOf (unitBlk 1 {}) 63 = some 15 ∧ groupOf (ready []) 63 = none ∧
    floorTo (ready []).sysTime (unitT (ready []) 63) ≤ (unit (ready []) 63).lastB ∧
    (unit (ready []) 63).lastB < floorTo 800 (unitT { ready [] with sysTime := 800 } 63) ∧
    (let b := ready [(uF 63 F.P_RANGE_ACT, 9), (uF 63 F.D_LOADCFG_OPEN_DET, 1)]
     isCurrent (actRange b 63) = true ∧ flag b (uF 63 F.D_LOADCFG_OPEN_DET) = true) ∧ isCurrent (actRange (ready []) 0) = false ∧
    (∀ x ∈ [(1, 9)], 0 < (x : Nat × Nat).1) ∧ (unit (unitBlk 1 { actQ := [(0, 15)] }) 63).actQ = [(0, 15)] ∧
    (unit (ready []) 63).swFrom.head? = none ∧
    (let b : Block := { unitBlk 1 { swFrom := [801, 900] } with sysTime := 800 }
     (unit b 63).swFrom.head? = some 801 ∧ 801 ≤ b.sysTime + 1 ∧ ({ b with sysTime := 799 } : Block).sysTime + 1 < 801) := by decide

/-- Unit 47 in the ratiometric range with its drive tracked and locked. -/
def trkBlk : Block :=
  let s := ready [(uF 47 F.P_RANGE_ACT, 4), (F.BRG_XSTAT_TRK_LOCK.at (brgBase 47), 1)]
  setUnit s 47 { unit s 47 with xcfg := 0xBB800001 }

/-- Comparator 7 in alarm, and enabled. -/
def cmpBlk (m lvl : Nat) : Block :=
  let s := inMode m [(cmpBit F.AON_CMP_STATE_LEVEL 7, lvl), (cmpF 7 F.AON_CMP0_CFG_EN, 1)]
  { s with aon := { s.aon with on := true } }

theorem witness_MonitorHappenings :
    ((-128 : Int) ≤ 127 ∧ (-128 : Int) ≤ (getF (ready []) (dieFld F.PATROL_TEMP_LIM_ADIE0 2) : Int)) ∧ 63 ∈ clusterUnits 15 ∧
    isCurrent (actRange (ready [(uF 63 F.P_RANGE_ACT, 8)]) 63) = true ∧
    (isCurrent (actRange (ready []) 63) || senseOff (ready []) 63) = false ∧
    tracking trkBlk 47 = true ∧ tracking (ready []) 47 = false ∧ actRange (ready []) 47 ≠ 4 ∧ actRange trkBlk 47 = 4 ∧
    flag trkBlk (F.BRG_XSTAT_TRK_LOCK.at (brgBase 47)) = true ∧
    flag (cmpBlk 1 1) (cmpBit F.AON_CMP_STATE_LEVEL 7) = true ∧
    ((cmpBlk 1 0).aon.on = true ∧ flag (cmpBlk 1 0) (cmpF 7 F.AON_CMP0_CFG_EN) = true ∧
      flag (cmpBlk 1 0) (cmpBit F.AON_CMP_STATE_LEVEL 7) = false ∧ awake (cmpBlk 1 0) = true ∧ modeOf (cmpBlk 1 0) ≠ 5 ∧
      flag (cmpBlk 1 0) (cmpF 7 F.AON_CMP0_CFG_SAFE) = false ∧ awake { cmpBlk 1 0 with boot := {} } = false) := by decide

/-- Lane L63 an input at level 0 whose rising edges are chosen, and VIO off on cluster 7. -/
def laneBlk (off : Bool) : Block :=
  let s := ready [(⟨unitBase 103 + R.LC_LCFG, 29, 28⟩, 3), (⟨unitBase 103 + R.LC_INCFG, 15, 14⟩, 1)]
  setLane s 7 { lane s 7 with vioOff := off }

theorem witness_LanePads : (lane (laneBlk false) 7).vioOff = false ∧ (lane (laneBlk true) 7).vioOff = true ∧
    7 ∈ inputLanes (laneBlk false) ∧ 6 ∉ inputLanes (laneBlk false) ∧
    (getF (laneBlk false) (lF 7 F.LC_INCFG_LEVEL)).testBit 7 = !true ∧ edgeChosen (laneBlk false) 7 true = true ∧
    edgeChosen (laneBlk false) 7 false = false ∧ Tbl.get (fun _ => 0) (lane (laneBlk false) 7).lastEv 7 = 0 ∧
    (ready []).event.evin.testBit 7 = false ∧
    (let b := ready [(⟨R.EVENT_EVINCFG, 15, 14⟩, 1)]
     (bits (getW b R.EVENT_EVINCFG) (2 * 7 + 1) (2 * 7)).testBit 0 = true ∧ b.event.evin.testBit 7 = !true ∧
      Tbl.get (fun _ => 0) b.event.evinAt 7 = 0 ∧ (bits (getW b R.EVENT_EVINCFG) (2 * 7 + 1) (2 * 7)).testBit 1 = false) ∧
    (after (.laneInputEdge 7 ⟨true, 1⟩) (laneBlk false)).fires.map (fun f => f.src) = [151] := by decide

/-! ## Acquisition -/

/-- The block with capture 3 of unit 31, PRE 0, POST 64, one record into segment 1, in engine state `e`. -/
def capCfg1 : CapCfg := { units := 0x80000000, capseg := 1, post := 64, records := 1 }
def capBlk (e : Nat) (c : CapSt) : Block :=
  let s := ready [(tF 3 F.TRACK_STATE_CONFIGURED, 1), (tF 3 F.TRACK_STATE_LOADED, 1), (tF 3 F.TRACK_STATE_ESTATE, e), (aF 31 F.A_CTRL_EN, 1)]
  let s := withSegs s [(1, { st := 6, sfmt := 2, len := 1024, pages := 8 })]
  let s := { s with mem := { s.mem with ptes := (List.range 8).map (fun k => (k, some ⟨8192 + k, 1, false⟩)) } }
  setCap s 3 c

theorem witness_AcquisitionCommands :
    (modeOf (ready []) ≠ 0 ∧ (ready []).cal.run = none) ∧
    (let p : List Word := [0x3, 0x80000000, 1, 0, 64, 65536, 0, 0, 0]
     let m : List Nat := [0x80031F03, 0xFFFFFFFF, 0xFFFFFFFF, 0xFFFFFF, 0xFFFFFFFF, 0x1FFFF, 0xFFFFFFFF, 0xFFFFFFFF, 0x1F]
     takes (ready []) (hdr 10) 0x40 p (· == 10) m = true ∧ capArmed (ready []) 3 = false ∧ capArmed (capBlk 1 {}) 3 = true ∧
      pb p 1 31 31 = 0 ∧ pb p 1 16 16 = 0 ∧ pw p 2 ≠ 0 ∧ pw p 4 ≤ 16777215 ∧ pw p 5 ≠ 0 ∧ pw p 6 = 65536 ∧ pb p 1 17 17 = 0 ∧
      (∀ n ∈ capUnits { units := pw p 2 }, flag (ready []) (aF n F.A_STATUS_IN_CAP) = false)) ∧
    (let p : List Word := [0xF03] ++ List.replicate 17 0
     takes (ready []) (hdr 19) 0x41 p (fun n => decide (2 ≤ n)) [0x10FFF03] = true ∧ pb p 1 24 24 = 0 ∧
      p.length = 1 + 17 * (pb p 1 15 12 + 1) ∧ pb p 1 11 8 + (pb p 1 15 12 + 1) = 16 ∧ stateBad (loadState (p.drop 1) 0) = false) ∧
    (let b := capBlk 0 { cfg := capCfg1, nst := 1 }
     let t := takePacket b (hdr 2) 0x42
     takes b (hdr 2) 0x42 [3] (· == 2) [0x103] = true ∧ dramBad t = false ∧ flag b (tF 3 F.TRACK_STATE_CONFIGURED) = true ∧
      flag (ready []) (tF 3 F.TRACK_STATE_CONFIGURED) = false ∧ (cap b 3).nst ≠ 0 ∧ capArmed b 3 = false ∧
      (List.range 32).filter (fun n => (refUnits b 3).contains n) = [31] ∧ flag b (aF 31 F.A_CTRL_EN) = true ∧
      (∀ i < 4, cNext (condAt b 3 0 i) < 1) ∧ armSegBad t 1 = false ∧ capCfg1.redEn = false ∧ capCfg1.up = false ∧
      capCfg1.records * slotBytes capCfg1 ≤ segSize (seg b 1)) ∧
    (takes (capBlk 2 {}) (hdr 2) 0x43 [3] (· == 2) [3] = true ∧ capRuns (capBlk 2 {}) 3 = true ∧ capRuns (capBlk 1 {}) 3 = false ∧
      capArmed (capBlk 1 {}) 3 = true ∧ capArmed (capBlk 0 {}) 3 = false) ∧
    (let b := capBlk 0 { cfg := capCfg1 }
     let t := takePacket b (hdr 6) 0x44
     takes b (hdr 6) 0x44 [3, 0, 1, 0, 0] (· == 6) [0x103, 0xFFFFFFFF, 0xFFFFFFFF, 0xFFFFFFFF, 0xFFFFFFFF] = true ∧ dramBad t = false ∧
      destOk t (hdr 6) (pw64 [3, 0, 1, 0xFEC0, 0] 4) (1 * readoutSize t [3, 0, 1, 0xFEC0, 0]) = true ∧
      pb [3, 0, 1, 0, 0] 1 8 8 = 0 ∧ linearRecord t 3 0 = none) ∧
    (let p : List Word := [3, 0, 1, 0xFEC1, 0]
     let b := { setF (capBlk 0 { cfg := capCfg1 }) F.HOSTCMD_SQ0_CFG_LOC 1 with cmd := (windowed 0x44 p []).cmd }
     let t := takePacket b (hdr 6) 0x44
     takes b (hdr 6) 0x44 p (· == 6) [0x103, 0xFFFFFFFF, 0xFFFFFFFF, 0xFFFFFFFF, 0xFFFFFFFF] = true ∧ dramBad t = false ∧
      destOk t (hdr 6) (pw64 p 4) (1 * readoutSize t p) = false) := by decide

/-- A complete record 0 in segment 1: its header's word 15 has bit 31. -/
theorem witness_AcquisitionCommands_record :
    (let b := capBlk 0 { cfg := capCfg1, recs := 1 }
     let t := { b with mem := { b.mem with dram := [(8192 * 8192 + 63, 0x80)] } }
     (linearRecord (takePacket t (hdr 6) 0x44) 3 0).isSome = true) := by decide

/-- Unit 31 converts; its word of tick 0 is due; the region is or is not in SAFE. -/
def sampleBlk (safe : Nat) (x : AUnit) : Block :=
  let s := ready [(aF 31 F.A_CTRL_EN, 1), (F.PATROL_RGN_STATE_SAFE, safe)]
  setAunit { s with sysTime := sampleDelay s 31 } 31 x

theorem witness_AcquisitionHappenings :
    flag (ready []) (aF 31 F.A_CTRL_EN) = false ∧
    (let b := sampleBlk 8 {}
     flag b (aF 31 F.A_CTRL_EN) = true ∧ modeOf b = 1 ∧ sampleDelay b 31 ≤ b.sysTime ∧
      (aunit b 31).next ≤ sampleTick b (sampleDelay b 31) (samplePeriod b 31) ∧ onCalPath b 95 = false ∧
      (getF b F.PATROL_RGN_STATE_SAFE).testBit (regionOf 95) = true) ∧
    ((getF (sampleBlk 0 { settle := 1 }) F.PATROL_RGN_STATE_SAFE).testBit (regionOf 95) = false ∧
      0 < (aunit (sampleBlk 0 { settle := 1 }) 31).settle ∧ (aunit (sampleBlk 0 {}) 31).settle = 0 ∧
      31 ∉ (sampleBlk 0 {}).cal.aswap ∧
      clampI (-maxValue) maxValue (correctSample (sampleBlk 0 {}) 31 (10 ^ 12)) ≠ correctSample (sampleBlk 0 {}) 31 (10 ^ 12)) ∧
    capRuns (ready []) 3 = false ∧
    (let b := { capBlk 2 { cfg := capCfg1, nst := 1 } with sysTime := 10000000 }
     let t := setAunit b 31 { next := 100 }
     capRuns t 3 = true ∧ nextTick t 3 (cap t 3).tick * capPeriod t 3 + capDelay t 3 ≤ t.sysTime ∧
      (∀ m ∈ refUnits t 3, nextTick t 3 (cap t 3).tick < (aunit t m).next) ∧ (cap t 3).abort = false) ∧
    (cap (ready []) 3).cfg.up = false ∧
    (let b := setF (capBlk 2 { cfg := { capCfg1 with up := true, upAddr := 0x10000, upSize := 12 }, stored := 1 })
        (tF 3 F.TRACK_UP_RPTR_OFS) 0
     (cap b 3).cfg.up = true ∧ dramBad b = false ∧ b.boot.pcieUp = true ∧ (cap b 3).again = [] ∧ (cap b 3).sent < (cap b 3).stored ∧
      Tbl.wf (fun _ => (0 : Byte)) b.cmd.hostMem = true ∧
      (getF b (tF 3 F.TRACK_UP_WPTR_OFS) + 64) % 2 ^ 12 ≠ getF b (tF 3 F.TRACK_UP_RPTR_OFS) / 64 * 64) := by decide

/-! ## Events, the Gyden bus, clocks -/

/-- A block with firings, and with the router's contents. -/
def firing (l : List Firing) : Block := { ready [] with fires := l, sysTime := 100 }
def onBus (l : List (Nat × Nat × Nat)) : Block :=
  { ready [] with event := { (ready []).event with bus := l }, sysTime := 100 }

theorem witness_EventRouter :
    (∀ f ∈ (firing [⟨191, 7, 101⟩]).fires, ¬(f.src = 191 ∧ f.hop = 7 ∧ f.due ≤ (firing [⟨191, 7, 101⟩]).sysTime)) ∧
    (routerOn (firing [⟨191, 7, 100⟩]) = true ∧ (firing [⟨191, 7, 100⟩]).event.bus = [] ∧
      getF (firing [⟨191, 7, 100⟩]) F.EVENT_SRCSEL_SRC ≠ 191) ∧
    (routerOn (onBus [(191, 7, 96)]) = true ∧ (onBus [(191, 7, 96)]).sysTime < 96 + 5 ∧ 95 + 5 ≤ (onBus [(191, 7, 95)]).sysTime) ∧
    (let s := { after (.rtGo .pcie) (blk [(F.EVENT_RT_SEL_SINK, 159), (⟨R.EVENT_RT_SRC, 31, 0⟩, 191), (⟨R.EVENT_RT_CFG, 31, 0⟩, 1)]) with
       sysTime := 5 }
     let g := { after (.rtGo .pcie) (blk [(F.EVENT_RT_SEL_SINK, 159), (⟨R.EVENT_RT_SRC, 31, 0⟩, 191), (⟨R.EVENT_RT_CFG, 31, 0⟩, 0x201)]) with
       sysTime := 5 }
     191 ∉ routedSources { s with sysTime := 4 } 159 ∧ 191 ∈ routedSources s 159 ∧ 190 ∉ routedSources s 159 ∧ bit (routeThen s 159).2 9 = false ∧ bit (routeThen g 159).2 9 = true ∧
      (levelsThen g).testBit (bits (routeThen g 159).2 8 4) = bit (routeThen g 159).2 10) ∧
    (let b := setTmr { ready [] with sysTime := 100 } 7 { next := 100, left := 1, hop := 7 }
     let c := setTmr { ready [] with sysTime := 100 } 7 { next := 100, left := 2, period := 50 }
     (tmr b 7).next = b.sysTime ∧ (tmr b 7).bounded = true ∧ (tmr b 7).left = 1 ∧ (tmr b 7).queued = none ∧ (tmr c 7).left = 2 ∧
      (tmr c 7).next ≠ 0 ∧ (tmr (ready []) 7).next = 0) ∧
    (let e : EventSt := { pulses := [(7, 101)] }
     let f : EventSt := { starts := [(7, 101)] }
     evTime e.pulses 7 = 100 + 1 ∧ evTime f.pulses 7 = 0 ∧ evTime f.starts 7 = 100 + 1 ∧ evTime e.starts 7 = 0) := by decide

/-- R210, R213: SWEV 7 fires source 191, which the router delivers to a sink that selects it. -/
theorem test_swev : (after (.eventFire 191 0) (after (.swev .pcie 0x80) upBlk)).fires = [] ∧
    (after (.swev .pcie 0x80) upBlk).fires = [⟨191, 0, 0⟩] := by decide

/-- A block on or off the bus: EN, MASTER, LINK and the Gyden state. -/
def busBlk (en master link : Nat) (g : GydenSt) : Block :=
  { ready [(F.GYDEN_CONFIG_EN, en), (F.GYDEN_CONFIG_MASTER, master), (F.GYDEN_STATE_LINK, link)] with gyden := g, sysTime := 1000000 }

theorem witness_GydenHappenings :
    (gclkGone (busBlk 1 0 2 {}) = false ∧ levelLine (busBlk 1 0 2 {}) 7 = false ∧
      (∀ p ∈ [(7, 1000001)], ¬((p : Nat × Nat).1 = 7 ∧ p.2 ≤ (busBlk 1 0 2 {}).sysTime)) ∧
      7 ∉ (busBlk 1 0 2 { slots := [(7, 1000000)] }).gyden.queued) ∧
    (flag (busBlk 0 0 0 {}) F.GYDEN_CONFIG_EN = false ∧ linkState (busBlk 1 0 1 {}) ≠ 2 ∧
      flag (busBlk 1 0 2 {}) F.GYDEN_CONFIG_EN = true ∧ linkState (busBlk 1 0 2 {}) = 2) ∧
    (let b := busBlk 1 0 2 { apply := [(7, 999000, 0)] }
     let c := busBlk 1 0 2 { apply := [(7, 999001, 0)] }
     999000 + slotLsys b 999000 = b.sysTime ∧ c.sysTime < 999001 + slotLsys c 999001 ∧ untilOf c.gyden.upto 7 = 0) ∧
    (slaveNode (busBlk 1 0 1 {}) = true ∧ linkState (busBlk 1 0 1 {}) ≠ 0) ∧
    ({ busBlk 0 0 0 {} with sysTime := 999999 } : Block).sysTime % 1000000 ≠ 0 ∧
    ((busBlk 0 0 0 {}).sysTime % 1000000 = 0 ∧ (busBlk 0 0 0 {}).gyden.lastEp ≠ (busBlk 0 0 0 {}).sysTime + 1) ∧
    (busBlk 1 0 2 {}).gyden.sentIn ≠ getF (busBlk 1 0 2 {}) F.GYDEN_EPOCHS_COUNT + 1 ∧
    (let b := { busBlk 1 0 2 { nodes := [(15, { flags := 1, heard := 1 })] } with now := 16000000 }
     (nodeOf b 15).flags % 2 = 1 ∧ (nodeOf b 15).heard + 16000000 ≤ b.now + 1 ∧
      ({ b with now := 15999999 } : Block).now + 1 < (nodeOf b 15).heard + 16000000) ∧
    slaveNode (busBlk 1 1 2 {}) = false ∧ linkState (busBlk 1 0 0 {}) = 0 ∧ slaveNode (busBlk 1 0 2 {}) = true ∧
    (let f : GdatFrame := ⟨15, false, true, true, false, false, 5, 1, .none, false, none, none, none⟩
     f.node = 15 ∧ f.crcOk = true ∧ f.mail = none ∧ f.msg = .none ∧ f.safe = false) := by decide

theorem witness_ClockAndBusCommands :
    (takes (ready []) (hdr 2) 0x68 [0x12] (· == 2) [0x13] = true ∧ anyArmed (seqBlk 0 {} [(qF 15 F.SEQ_STATE_SSTATE, 2)]) = true ∧
      anyArmed (ready []) = false ∧ slaveNode (ready []) = false ∧ pb [3] 1 1 0 = 3 ∧ pb [0x12] 1 1 0 = 2) ∧
    (takes (ready [(F.CLOCK_STATE_RELOCK_PEND, 1)]) (hdr 2) 0x69 [0xF2] (· == 2) [0xF3] = true ∧ pb [0xF2] 1 1 0 ≠ 3 ∧
      flag (ready [(F.CLOCK_STATE_RELOCK_PEND, 1)]) F.CLOCK_STATE_RELOCK_PEND = true ∧
      flag (ready []) F.CLOCK_STATE_RELOCK_PEND = false ∧ stepTooLarge (ready [(F.CLOCK_STATE_RELOCK_PEND, 1)]) = false) ∧
    (takes (ready []) (hdr 5) 0x70 [0, 0, 0, 0] (· == 5) [0x3F3, 0xFFFF, 0xFFFFFFFF, 0xFFFFFFFF] = true ∧ pb [0, 0, 0, 0] 1 8 8 = 0 ∧
      flag (ready []) F.GYDEN_CONFIG_EN = false ∧ decide (pb [0, 0, 0, 0] 1 1 1 = 1) = flag (ready []) F.GYDEN_CONFIG_MASTER ∧
      pb [0, 0, 0, 0] 1 7 4 = ownNode (ready []) ∧
      (let b := seqBlk 0 {} [(qF 15 F.SEQ_STATE_SSTATE, 2)]
       decide (pb [1, 0, 0, 0] 1 0 0 = 1) ≠ flag b F.GYDEN_CONFIG_EN ∧ anyArmed b = true ∧
        takes b (hdr 5) 0x70 [1, 0, 0, 0] (· == 5) [0x3F3, 0xFFFF, 0xFFFFFFFF, 0xFFFFFFFF] = true) ∧
      flag (busBlk 1 0 2 {}) F.GYDEN_CONFIG_EN = true ∧ anyArmed (busBlk 1 0 2 {}) = false ∧ linkState (busBlk 1 0 1 {}) ≠ 2 ∧
      takes (busBlk 1 0 1 {}) (hdr 5) 0x70 [1, 0, 0, 0] (· == 5) [0x3F3, 0xFFFF, 0xFFFFFFFF, 0xFFFFFFFF] = true ∧
      decide (pb [1, 0, 0, 0] 1 1 1 = 1) = flag (busBlk 1 0 1 {}) F.GYDEN_CONFIG_MASTER ∧
      pb [1, 0, 0, 0] 1 7 4 = ownNode (busBlk 1 0 1 {})) ∧
    (takes (busBlk 1 0 2 {}) (hdr 2) 0x71 [2] (· == 2) [3] = true ∧ linkState (ready []) ≠ 2 ∧ linkState (busBlk 1 1 2 {}) = 2 ∧
      masterNode (busBlk 1 1 2 {}) = true ∧ masterNode (busBlk 1 0 2 {}) = false ∧ pb [2] 1 0 0 = 0 ∧
      takes (busBlk 1 1 2 {}) (hdr 2) 0x71 [3] (· == 2) [3] = true ∧ pb [3] 1 0 0 = 1 ∧ otherNodes (busBlk 1 1 2 {}) = [] ∧
      otherNodes (setF (busBlk 1 1 2 {}) F.GYDEN_PRESENT_NODES 0x8001) = [15] ∧
      linkState (setF (busBlk 1 1 2 {}) F.GYDEN_PRESENT_NODES 0x8001) = 2) := by decide

/-- A block with clock state and fields. -/
def clkBlk (c : ClockSt) (l : List (Fld × Nat)) : Block := { ready l with clock := c, sysTime := 1000 }

theorem witness_ClockHappenings :
    (clkBlk { refLost := true } []).clock.refLost = true ∧ (ready []).clock.refLost = false ∧
    loopState (clkBlk {} [(lpF 1 F.CLOCK_L0_LSTAT_LSTATE, 2)]) 1 = 2 ∧ flag (ready []) F.CLOCK_STATE_BACKUP = false ∧
    flag (ready []) F.CLOCK_STATE_GLIDE = false ∧ (ready []).clock.measuring = false ∧
    (clkBlk { measuring := true } []).clock.measuring = true ∧ slaveNode (busBlk 1 0 2 {}) = true ∧ slaveNode (ready []) = false ∧
    flag (ready []) F.CLOCK_STATE_STEERING = false ∧ flag (clkBlk {} [(F.CLOCK_STATE_STEERING, 1)]) F.CLOCK_STATE_STEERING = true ∧
    stepDue (ready []) = false ∧ stepDue (clkBlk { policy := some 2, stepAt := 1001, delta := 5000 } []) = true ∧
    mayLock (ready []) 3 0 = false ∧ mayLock { clkBlk {} [(lpF 3 F.CLOCK_L0_LSTAT_LSTATE, 1)] with now := 10 ^ 9 } 3 0 = true ∧
    (loopState (ready []) 3 = 0 ∧ loopState (clkBlk {} [(lpF 2 F.CLOCK_L0_LSTAT_LSTATE, 5)]) 2 = 5) ∧
    (let b := clkBlk {} [(lpF 2 F.CLOCK_L0_LSTAT_LSTATE, 2), (lpF 0 F.CLOCK_L0_LSTAT_LSTATE, 2), (F.CLOCK_CTRL_BACKUP_EN, 1)]
     loopState b 2 ≠ 0 ∧ loopState b 2 ≠ 5 ∧ flag b F.CLOCK_CTRL_BACKUP_EN = true ∧ b.clock.xtalLost = false ∧ loopState b 0 = 2) ∧
    flag (clkBlk {} [(lpF 2 F.CLOCK_L0_LSTAT_LSTATE, 2), (F.CLOCK_CTRL_BACKUP_EN, 0)]) F.CLOCK_CTRL_BACKUP_EN = false ∧
    (let b := { clkBlk {} [(lpF 1 F.CLOCK_L0_LSTAT_LSTATE, 5)] with now := 10 ^ 9 }
     let c := { clkBlk {} [(lpF 1 F.CLOCK_L0_LSTAT_LSTATE, 1), (lpF 2 F.CLOCK_L0_LSTAT_LSTATE, 2)] with now := 10 ^ 9 }
     mayLock b 1 0 = true ∧ loopState b 1 = 5 ∧ mayLock c 1 0 = true ∧ loopState c 1 ≠ 5 ∧ bothLocked (setLoop c 1 2) = true) ∧
    (clkBlk { xtalLost := true } []).clock.xtalLost = true ∧ (ready []).clock.xtalLost = false := by decide

/-! ## DRAM, calibration, NOR, start-up -/

/-- The stack in service: DSTATE 2; then the fields. -/
def dramBlk (l : List (Fld × Nat)) : Block := ready ([(F.DRAMC_STATE_DSTATE, 2), (F.DRAMC_CTRL_ECC_EN, 1)] ++ l)

/-- PAC's request of a command on the CDIE ledger. -/
def cdieReq (s : Block) (op mw : Nat) : PacReq := ⟨1, 110, [(6, mw)], .cmd op, 0, s.cmd.cur, s.now + toCmd s⟩

theorem witness_DramCommandsAndErrors :
    (let b := dramBlk []
     let t := takePacket b (hdr 2) 0x60
     modeOf b ≠ 0 ∧ takes b (hdr 2) 0x60 [0x30] (· == 2) [0x33] = true ∧ takes b (hdr 2) 0x60 [0x11] (· == 2) [0x33] = true ∧
      pb [0x30] 1 1 1 = 0 ∧ dramBad b = false ∧ flag b F.DRAMC_STATE_BUSY = false ∧
      b.cmd.jobs = [] ∧ anyDependent b = false ∧ anyCapArmed b = false ∧ anyCapArmed (capBlk 1 {}) = true ∧ pb [0x30] 1 0 0 = 0 ∧
      pb [0x11] 1 0 0 = 1 ∧ pacAnswer t (cdieReq t Op.dramTrain 300) false = .grant) ∧
    (takes (dramBlk []) (hdr 2) 0x61 [1] (· == 2) [3] = true ∧ pb [1] 1 0 0 = 1 ∧ getF (dramBlk []) F.DRAMC_STATE_FSP = 0 ∧
      pb [0] 1 0 0 = 0) ∧
    (takes (ready [(F.DRAMC_STATE_DSTATE, 4)]) (hdr 2) 0x62 [1] (· == 2) [1] = true ∧ getF (dramBlk []) F.DRAMC_STATE_DSTATE ≠ 4 ∧
      getF (ready [(F.DRAMC_STATE_DSTATE, 4)]) F.DRAMC_STATE_DSTATE = 4 ∧ (∀ w < 56, w ∉ ([] : List Nat)) ∧
      (∃ w < 56, w ∈ [55]) ∧ pb [0] 1 0 0 = 0 ∧ pb [1] 1 0 0 = 1 ∧
      flag (ready [(F.DRAMC_STATE_DSTATE, 4)]) F.DRAMC_FRZ_SEG_SYSAREA = false) ∧
    (dramRuns (ready [(F.DRAMC_STATE_DSTATE, 4)]) = false ∧ dramRuns (dramBlk []) = true ∧
      flag (dramBlk []) F.DRAMC_CTRL_ECC_EN = true ∧ (dramBlk []).mem.move = none ∧ (∀ c < 8, (lift (dramBlk []) c).st = 0) ∧
      (∀ k < 4, capRuns (dramBlk []) k = false) ∧ (∀ k < 16, getF (dramBlk []) (qF k F.SEQ_STATE_SSTATE) = 0) ∧
      469762047 < dramBlocks) ∧
    (let q : SeqSt := { passAt 100 with pins := [1], played := true }
     let b := { seqBlk 0 q [(qF 15 F.SEQ_STATE_SSTATE, 3), (F.DRAMC_STATE_DSTATE, 4)] with now := 32000 }
     getF b F.DRAMC_STATE_DSTATE = 4 ∧ stillPlays b 15 = true ∧ b.dramc.frozenAt + 32000 = b.now ∧ (group b 15).lcmask = 0 ∧
      ({ b with now := 31999 } : Block).now < b.dramc.frozenAt + 32000) ∧
    ((dramBlk []).dramc.blackout = none ∧
      (let b := { running (passAt 100) 0 with dramc := { blackout := some 0 }, now := 32000 }
       let c := setF b (qF 15 F.SEQ_CTRL_UPOL) 2
       b.dramc.blackout = some 0 ∧ seqDue b 15 = true ∧ (seqr b 15).mode = 1 ∧ cachedFor b 15 (seqr b 15).seg = false ∧
        getF b (qF 15 F.SEQ_CTRL_UPOL) ≠ 2 ∧ getF c (qF 15 F.SEQ_CTRL_UPOL) = 2 ∧ seqDue c 15 = true ∧ 0 + 32000 ≤ b.now ∧
        ({ b with now := 31999 } : Block).now < 0 + 32000)) := by decide

theorem witness_DramUpkeep :
    (Tbl.get (fun _ => 0) (dramBlk []).dramc.owed 3 < maxPost (dramBlk []) ∧
      maxPost (dramBlk []) ≤ Tbl.get (fun _ => 0) ({ dramBlk [] with dramc := { owed := [(3, 8)] } } : Block).dramc.owed 3) ∧
    flag (dramBlk [(F.DRAMC_CTRL_RH_EN, 0)]) F.DRAMC_CTRL_RH_EN = false ∧ flag (dramBlk [(F.DRAMC_CTRL_RH_EN, 1)]) F.DRAMC_CTRL_RH_EN = true ∧
    flag (dramBlk [(F.DRAMC_CTRL_SCRUB_EN, 0)]) F.DRAMC_CTRL_SCRUB_EN = false ∧
    flag (dramBlk [(F.DRAMC_CTRL_SCRUB_EN, 1)]) F.DRAMC_CTRL_SCRUB_EN = true ∧
    getF (dramBlk [(F.DRAMC_SCRUB_STAT_RUN, 2 ^ 26 - 1)]) F.DRAMC_SCRUB_STAT_RUN + 1 = 2 ^ 26 ∧
    flag (dramBlk [(F.DRAMC_CTRL_OSC_EN, 1)]) F.DRAMC_CTRL_OSC_EN = true ∧ flag (dramBlk [(F.DRAMC_CTRL_OSC_EN, 0)]) F.DRAMC_CTRL_OSC_EN = false ∧
    getF (dramBlk []) F.DRAMC_OSC_CFG_LIMIT < (-256 : Int).natAbs ∧ dramRuns (dramBlk []) = true ∧ dramRuns (ready []) = false ∧
    flag (dramBlk []) F.DRAMC_CTRL_ECC_EN = true := by decide

/-- R265: a burst refresh beyond MAXPOST is inserted, flagged and counted. -/
theorem test_refresh_inserted :
    getF (after (.refresh 3 15 true) { dramBlk [] with dramc := { owed := [(3, 8)] } }) F.DRAMC_REF_STAT_INSERTED = 1 := by decide

/-- The words of a CAL_RUN of unit 0, gain and offset, REFV 10 V. -/
def calPkt : List Word := [1, 0, 0, 0x1000000, 10000000000 % 2 ^ 32, 10000000000 / 2 ^ 32, 0, 0, 5, 0]
def calMask : List Nat := [0xFFFFFFFF, 0xFFFFFFFF, 0xFFFFFFFF, 0x1FF73FFF, 0xFFFFFFFF, 0xFFFFFFFF, 0xFFFFFFFF, 0xFFFFFFFF,
  0xFFFFFFFF, 0xFFFFFFFF]

theorem witness_CalibrationAndNor_run :
    (takes (ready []) (hdr 11) 0x50 calPkt (· == 11) calMask = true ∧ modeOf (ready []) ≠ 3) ∧
    (takes (inMode 3 []) (hdr 11) 0x50 (List.replicate 10 0) (· == 11) calMask = true ∧ runParamBad (List.replicate 10 0) = true) ∧
    (let b := inMode 3 []
     let t := takePacket b (hdr 11) 0x50
     takes b (hdr 11) 0x50 calPkt (· == 11) calMask = true ∧ modeOf b = 3 ∧ runParamBad calPkt = false ∧ b.cal.run = none ∧
      b.cmd.jobs = [] ∧ runUnits calPkt = [0] ∧ runUnitBad t 0 = false ∧ pacAnswer t (runRequest t (hdr 11) calPkt) false = .grant) ∧
    (let r : CalRun := { p := calPkt, left := [[1], [], [], [], []], busy := [(0, 0)] }
     let b : Block := { withJobs (inMode 3 []) [jobOf 0x50 .inProgress] with cal := { run := some r } }
     b.cal.run = some r ∧ calJob b = some (jobOf 0x50 .inProgress) ∧ modeOf b = 3 ∧ ostate b 0 = 0 ∧
      r.left.getD (listOf 0) [] ≠ []) := by decide

theorem witness_CalibrationAndNor_commit :
    (let p : List Word := [0, 0, 0x80000000, 0]
     let b := ready []
     takes b (hdr 5) 0x51 p (· == 5) [0xFFFFFFFF, 0xFFFFFFFF, 0xFFFFFFFF, 0x3FF] = true ∧ modeOf b = 1 ∧ pb p 4 9 9 = 0 ∧
      commitUnits b p = [95] ∧ calPend b 95 = none ∧
      (let c : Block := { b with cal := { pend := [(95, some {})] } }
       let t := takePacket c (hdr 5) 0x51
       calPend c 95 ≠ none ∧ c.cmd.jobs = [] ∧ pacAnswer t (cdieReq t Op.calCommit 100) false = .grant)) ∧
    takes (ready []) (hdr 5) 0x52 [0, 0, 0x80000000, 0x100] (· == 5) [0xFFFFFFFF, 0xFFFFFFFF, 0xFFFFFFFF, 0x1FF] = true ∧
    (let p : List Word := [1, 0, 1, 0xFFC0, 0]
     let b := ready [(F.CAL_AUDIT_STAT_STORED, 1), (F.CAL_AUDIT_SEQ_LO_SEQ, 2)]
     takes b (hdr 6) 0x5A p (· == 6) [0xFFFFFFFF, 0xFFFFFFFF, 0xFFFFFFFF, 0xFFFFFFFF, 0xFFFFFFFF] = true ∧ pw p 3 = 1 ∧
      destOk (takePacket b (hdr 6) 0x5A) (hdr 6) (pw64 p 4) 64 = true ∧ auditOldest b ≤ pw64 p 1 ∧ pw64 p 1 < auditNext b ∧
      auditNext b ≤ pw64 [2, 0, 1, 0, 0] 1 ∧ pw64 [0, 0, 1, 0, 0] 1 < auditOldest b) := by decide

/-- A sound record of unit 63: no slope or dwell of 0, its CRC in word 7. -/
def unitRec63 : List Word := [0, 0, 0, 0, 1, 1, 0, Word.ofNat (crc32 (wordsBytes [0, 0, 0, 0, 1, 1, 0]))]

theorem witness_CalibrationAndNor_nor :
    (let p : List Word := [0x3FFF000, 4096, 0, 0]
     let b := ready []
     takes b (hdr 5) 0x58 p (· == 5) [0x3FFFFFF, 0x1FFFF, 0xFFFFFFFF, 0xFFFFFFFF] = true ∧ pb p 1 25 0 % 4 = 0 ∧ pb p 2 16 0 = 4096 ∧
      pb p 1 25 0 + pb p 2 16 0 = 2 ^ 26 ∧ destOk (takePacket b (hdr 5) 0x58) (hdr 5) (pw64 p 3) 4096 = true ∧
      takes b (hdr 5) 0x58 [1, 4096, 0, 0] (· == 5) [0x3FFFFFF, 0x1FFFF, 0xFFFFFFFF, 0xFFFFFFFF] = true ∧ pb [1] 1 25 0 % 4 ≠ 0) ∧
    (let p : List Word := [0x3F01, 0, 32, 0, 0] ++ unitRec63
     takes (ready []) (hdr 14) 0x59 p (fun k => decide (6 ≤ k)) [0x33F0F] = true ∧ pb p 1 3 0 = 1 ∧ pb p 1 17 16 = 0 ∧ pw p 2 = 0 ∧
      pw p 3 = 32 ∧ p.length = 13 ∧ unitRecOk (pb p 1 13 8) (wordsBytes (p.drop 5)) = true ∧
      unitRecOk 63 (wordsBytes (List.replicate 8 0)) = false) ∧
    (takes (ready []) (hdr 2) 0x7E [0x111] (· == 2) [0x111] = true ∧ getF (ready []) F.HOSTCMD_STATE_UE_STATE ≠ 4 ∧ modeOf (inMode 2 []) ≠ 1 ∧
      reloadForbidden (ready []) = false ∧ (ready []).cmd.jobs = [] ∧ (withJobs (ready []) [jobOf 0x10 .waiting]).cmd.jobs ≠ []) ∧
    (let b : Block := { ready [(F.NVM_CTRL_DPD_EN, 1)] with now := 10000000 }
     flag b F.NVM_STATE_BUSY = false ∧ flag b F.NVM_CTRL_DPD_EN = true ∧ b.nvm.idle + 10000000 = b.now ∧
      flag (ready [(F.NVM_STATE_BUSY, 1)]) F.NVM_STATE_BUSY = true) ∧
    (let o : NvmOp := ⟨2, 0x1000, [0x0F]⟩
     o.kind = 2 ∧ Tbl.get (fun _ => (255 : Byte)) (nvmEffect { ready [] with nvm := { bytes := [(0x1000, 0x3C)] } } o).nvm.bytes 0x1000 = 0x0C) := by
  decide

/-- A start-up's world in which the crystal does not start. -/
def noXtal : BootEnv :=
  { readA := true, readB := true, crystalOk := false, nvmOk := true, linkOk := [true, true, true, true],
    train0 := ⟨60, true, true, true, 0, 0, 0, 0⟩, train1 := ⟨60, true, true, true, 0, 0, 0, 0⟩, vioOk := List.replicate 8 true, duration := 100 }

theorem witness_ResetsAndStartUp :
    (Block.reset.boot.powered = false ∧ Block.reset.boot.held = false ∧ modeOf Block.reset = 0 ∧ noXtal.crystalOk = false ∧
      upBlk.boot.powered = true) ∧
    (let e : BootEnv := { noXtal with crystalOk := true }
     e.crystalOk = true ∧ e.nvmOk = true ∧ e.train0.stepDownOk = true ∧ e.train1.stepDownOk = true ∧ Block.reset.boot.safeLow = false) ∧
    ((holdReset upBlk 1).boot.held = true ∧ upBlk.boot.held = false ∧ modeOf upBlk ≠ 5) ∧
    (Block.reset.aon.on = false ∧ rtcBlk.aon.on = true) ∧
    (let b : Block := { ready [] with aon := { on := true, wdogAt := 2 }, now := 1 }
     b.aon.wdogAt ≠ 0 ∧ b.aon.wdogAt ≤ b.now + 1 ∧ modeOf b ≠ 0 ∧ modeOf b ≠ 5 ∧ ({ b with now := 0 } : Block).now + 1 < b.aon.wdogAt ∧
      (ready []).aon.wdogAt = 0) ∧
    (let b : Block := { ready [] with boot := { (ready []).boot with offAt := 2 }, now := 1 }
     b.boot.offAt ≠ 0 ∧ b.boot.offAt ≤ b.now + 1 ∧ (ready []).boot.offAt = 0) ∧
    (let b := inMode 5 [(F.AON_CTRL_ALARM_WAKE, 1), (F.AON_STATUS_ALARM, 1)]
     modeOf b = 5 ∧ b.boot.held = false ∧ flag b F.AON_CTRL_ALARM_WAKE = true ∧ flag b F.AON_STATUS_ALARM = true ∧ modeOf (ready []) ≠ 5) ∧
    (awake (ready []) = true ∧ (ready []).boot.spiReady = true ∧ awake Block.reset = false ∧ (∀ c < 8, (lift (ready []) c).st = 0)) := by
  decide

/-- R389: without its crystal the device stops in BOOT after step 1, with SPI ready. -/
theorem test_start_without_crystal : getF (after (.supplyValid noXtal) Block.reset) F.NVM_STARTUP_FAIL = 2 ∧
    modeOf (after (.supplyValid noXtal) Block.reset) = 0 := by decide


/-! ## Well-formedness: every check refuses an ill-formed step -/

theorem test_wf_ring : (Instr.nop ⟨4, 7, 0, 1⟩ []).wf = false := by decide

theorem test_wf_tag : (Instr.identify ⟨0, 256, 0, 1⟩ []).wf = false := by decide

theorem test_wf_flags : (Instr.getStatus ⟨0, 7, 256, 1⟩ []).wf = false := by decide

theorem test_wf_length_range : (Instr.segFree ⟨0, 7, 0, 0⟩ []).wf = false ∧
    (Instr.segFree ⟨0, 7, 0, 65⟩ (List.replicate 64 0)).wf = false := by decide

theorem test_wf_length_words : (Instr.seqStart ⟨0, 7, 0, 3⟩ [0]).wf = false := by decide

theorem test_wf_master : (Instr.latchingLowRead .pcie 0x50000).wf = false ∧ (Instr.highWordRead .spi 0x1000000).wf = false ∧
    (Instr.reservedRead .pcie 2).wf = false := by decide

theorem test_wf_register_write : (Instr.registerWrite .pcie 0x50000 0 15).wf = false ∧
    (Instr.registerWrite .pcie 0 0 16).wf = false := by decide

theorem test_wf_scrub : (Instr.cstoreScrub ⟨0, 0, some (72, false)⟩).wf = false := by decide

theorem test_wf_start_up : (Instr.supplyValid { noXtal with linkOk := [true] }).wf = false ∧
    (Instr.rstNRelease { noXtal with vioOk := [] }).wf = false := by decide

theorem test_wf_wake : (Instr.wake (.comparator 8) noXtal).wf = false := by decide

theorem test_wf_frame : (Instr.framePlayback (.group 16)).wf = false ∧ (Instr.framePlayback (.unit 64)).wf = false ∧
    (Instr.framePlayback (.lanes 8)).wf = false := by decide

theorem test_wf_party : (Instr.modeApply (.unit 64)).wf = false ∧ (Instr.modeApply (.lanes 8)).wf = false ∧
    (Instr.modeApply (.region 4)).wf = false ∧ (Instr.modeApply (.node 16)).wf = false := by decide

theorem test_wf_uncorrectable : (Instr.dramFreeze ⟨0, 0, 0, false, 469762048, 1, 0, 0, none⟩).wf = false := by decide

theorem test_wf_temperatures : (Instr.tempSample ⟨[none], 0, 0, 0⟩).wf = false := by decide

theorem test_wf_codes : (Instr.mr4Read [3] false).wf = false := by decide

theorem test_wf_descriptor : (Instr.liftDescriptor 8 (List.replicate 8 0) []).wf = false ∧
    (Instr.liftDescriptor 0 [] []).wf = false := by decide

/-- A number past the last object of its kind. -/
theorem test_wf_numbers :
    ([.ringError 4 none, .stepWdog 4, .journalReplay 4, .sqTailWrite .pcie 4 0, .sqCfgWrite .pcie 4 0, .force .pcie 4,
      .upRptrWrite .pcie 4 0, .writeReachesAdie 4, .supplyDip 10, .supplyBelowThreshold ⟨10, 0⟩, .safeAnnouncement 16, .vioLow 8,
      .vioRecover 8, .laneInputEdge 8 ⟨true, 0⟩, .evinEdge 8 ⟨true, 0⟩, .laneContentionCheck 8 0, .comparatorAlarm ⟨8, []⟩,
      .comparatorClear ⟨8, []⟩, .tempStale 24, .senseCheck 64 true, .complianceOnset ⟨64, true⟩, .openLoad 64, .modOvl ⟨64, true⟩, .trkLock ⟨48, ⟨[], 0, 0⟩⟩,
      .trkLockLoss ⟨48, ⟨[], 0, 0⟩⟩, .rangeSwitch 64, .swFail 64] : List Instr).all (fun c => !c.wf) = true := by decide

theorem test_wf_more_numbers :
    ([.ringRead 16, .jumpDecision 16, .passEnd 16, .underrunHoldCheck 16, .granuleJump 16, .gateRelease 16, .frame0 16,
      .stopTakesEffect 16, .carveApply 16, .admissionRelease 16, .liftDescriptorEnd 8, .liftWaitRelease 8, .loopCacheUe ⟨16, 0⟩, .loopCacheUe ⟨0, 65536⟩,
      .eccCorrection (.dram 469762048), .eccCorrection (.sineWord 2 0 0 0), .freezeBuffersEmpty 16, .blackoutUnderrun 16, .refresh 4 0 false, .refresh 0 16 false,
      .rfm 4 0 0 0 0 ⟨[], 1⟩, .rfm 0 16 0 0 0 ⟨[], 1⟩, .rfm 0 0 262144 0 0 ⟨[], 1⟩, .rfm 0 0 0 13 0 ⟨[], 1⟩, .rfm 0 0 0 0 16 ⟨[], 1⟩, .rfm 0 0 0 0 0 ⟨[], 0⟩,
      .driftTrack 4 0 0, .acqSample 32 0 0, .trackTick 4, .uploadBlock 4, .eventFire 192 0, .tmrFire 8, .evoutPulseEnd 8,
      .gevSlotSend 8, .gevReceive 8, .gevApply 8, .nodeLost 16, .lockDeclared ⟨4, 0⟩, .lossOfLock ⟨4, true⟩, .linkFrame 4 false,
      .linkGapEnd 4, .linkLost 4, .patrolWindowClose 9 0, .stepBoundary 4 ⟨none, none⟩] : List Instr).all (fun c => !c.wf) = true := by
  decide

theorem test_wf_results : (Instr.excWindowEnd 48 ⟨[], 0⟩).wf = false ∧
    (Instr.gdatFrameReceive ⟨16, false, true, false, false, false, 0, 0, .none, false, none, none, none⟩).wf = false ∧
    (Instr.calUnitFinished 104 ⟨[], 0, [], 0, [], [], 0, 0, 0⟩).wf = false := by decide

/-- Tests of the factory sine table against R155's formula and Table 17-6: the quarter points and two other entries. -/
theorem test_factory_sine : factorySine 4096 = 8388607 ∧ factorySine 12288 = -8388607 ∧ factorySine 1 = 3217 ∧
    factorySine 5000 = 7889536 := by decide

/-! ## Boundary states of the further hypotheses -/

theorem witness_quiet : quiet (ready []) = true ∧ quiet upBlk = true ∧ quiet moveBlk = true ∧ quiet (dramBlk []) = true ∧
    quiet (running (passAt 192) 0) = true ∧ (running (passAt 192) 0).mem.errs = [] ∧ moveBlk.mem.errs = [] ∧
    (dramBlk []).mem.errs = [] := by decide

theorem witness_UpkeepHappenings_supply : supplyLow (ready []) 9 = false ∧
    supplyLow { ready [] with boot := { (ready []).boot with lowTill := [(9, 1)] } } 9 = true := by decide

theorem witness_RingsAndMoves_compact :
    (let p : List Word := [1]
     let r := fun (b : Block) => (⟨0, 110, [(6, 100)], .cmd Op.segCompact, 0, b.cmd.cur, b.now + toCmd (takePacket b (hdr 2) 0x16)⟩ : PacReq)
     let b := ready [(F.POWER_PKG_RSV_TOTAL.at 16, 1)]
     takes (ready []) (hdr 2) 0x16 p (· == 2) [0x1FFFF] = true ∧ pacAnswer (takePacket (ready []) (hdr 2) 0x16) (r (ready [])) false = .grant ∧
      (∀ x ∈ (ready []).sys.queue, x.id ≠ (ready []).cmd.cur) ∧ takes b (hdr 2) 0x16 p (· == 2) [0x1FFFF] = true ∧
      pacAnswer (takePacket (ready [(F.POWER_PKG_RSV_TOTAL.at 4, getF (ready []) F.POWER_LIM_CDIE_CDIE)]) (hdr 2) 0x16)
        (r (ready [])) false = .queue) ∧
    (let b : Block := { moveBlk with now := 10000 }
     0 + copyTime b ≤ b.now ∧ moveBlk.now < 0 + copyTime moveBlk) := by decide

theorem witness_FinishedMove_error :
    (let b : Block := { moveBlk with mem := { moveBlk.mem with errs := [(8192 * 1024, 2)] } }
     let c := setF b F.DRAMC_STATE_DSTATE 2
     (8192 * 1024, 2) ∈ c.mem.errs ∧ 8192 * 1024 / 1024 = 8192 ∧ flag c F.DRAMC_CTRL_ECC_EN = true ∧ dramRuns c = true ∧
      quiet c = true) ∧ (∀ x ∈ [(8193 * 1024, 2)], (x : Nat × Nat).1 / 1024 ≠ 8192) := by decide

theorem witness_LiftEngine_time : (0 : Nat) + liftTime (ready []) 64 ≤ (ready []).now ∧
    (let b : Block := { ready [(F.DRAMC_STATE_FSP, 1)] with now := 1000 }
     0 + liftTime b 64 ≤ b.now) := by decide

theorem witness_SequencerCommands_later :
    (let b := running (passAt 1) (stepW 0 false true 0)
     let t := takePacket b (hdr 2) 0x25
     inLaterFrame t 15 (nextEdge t) = true ∧ (seqr b 15).played = true) ∧
    (let b := running (passAt 200000) (stepW 0 false true 0)
     let t := takePacket b (hdr 2) 0x25
     inLaterFrame t 15 (nextEdge t) = false ∧ (seqr b 15).latches = [] ∧ takes b (hdr 2) 0x25 [0xF] (· == 2) [0x30F] = true) := by decide

theorem witness_MonitorHappenings_figures :
    (let r : TrkReport := ⟨List.replicate 16 999, xcfgF trkBlk 47 F.BRG_XCFG_FNOM, 1000000⟩
     let b := setF trkBlk (F.BRG_XSTAT_TRK_LOCK.at (brgBase 47)) 0
     tracking b 47 = true ∧ locked b 47 = false ∧ 16 ≤ r.errs.length ∧ (∀ e ∈ r.errs.take 16, e < 1000) ∧
      nearFnom b 47 r.freq = true ∧ 1000000 ≤ r.peak ∧ ¬(tracking (ready []) 47 = true)) ∧
    (let r : TrkReport := ⟨[10001, 10001, 10001, 10001], 0, 0⟩
     locked trkBlk 47 = true ∧ 4 ≤ r.errs.length ∧ (∀ e ∈ r.errs.take 4, 10000 < e) ∧ locked (ready []) 47 = false) ∧
    (let x : ExcSample := ⟨16000000, 0, 0, 0, 0, 0⟩
     let w : ExcWindow := ⟨[x], 0⟩
     w.samples.getLast? = some x ∧ actRange trkBlk 47 = 4 ∧
      (∀ p ∈ w.samples.zipIdx, (excUsed trkBlk 47 (trkBlk.sysTime - 25 * (w.samples.length - 1 - p.2)) p.1).natAbs ≤ 16000000)) ∧
    ((ready []).sysTime % 10000000 = 0 ∧ ({ ready [] with sysTime := 1 } : Block).sysTime % 10000000 ≠ 0 ∧
      (unit (ready []) 63).senseAt ≠ (ready []).sysTime + 1 ∧ (unit (setUnit (ready []) 63 { senseAt := 1 }) 63).senseAt = 1) ∧
    (let l : List Int := List.replicate 256 30000
     cmpRun (cmpBlk 1 0) 7 l (cmpBeyond (cmpBlk 1 0) 7) = true ∧ cmpRun (cmpBlk 1 0) 7 [] (cmpBeyond (cmpBlk 1 0) 7) = false ∧
      cmpRun (cmpBlk 1 1) 7 (List.replicate 256 0) (cmpBack (cmpBlk 1 1) 7) = true ∧
      cmpRun (cmpBlk 1 1) 7 [] (cmpBack (cmpBlk 1 1) 7) = false) := by decide

theorem witness_LanePads_filter : bits (incfgNow (laneBlk false)) 23 16 < 1 ∧ 0 ≤ bits (incfgNow (laneBlk false)) 23 16 ∧
    routerOn (ready []) = true ∧ routerOn Block.reset = false := by decide

theorem witness_GydenHappenings_frames : modeFrame (busBlk 1 0 2 {}) = false ∧ modeFrame (busBlk 1 0 2 { commitN := 1 }) = true ∧
    routerOn (busBlk 1 0 2 {}) = true ∧ gclkGone (busBlk 1 0 2 { lost := true }) = true := by decide

theorem witness_ClockAndBusCommands_join : (ready []).gyden.syncAt = 0 ∧
    (getF (ready []) F.GYDEN_PRESENT_NODES).testBit (pb [0xF1, 0, 0, 0] 1 7 4) = false ∧
    takes (ready []) (hdr 5) 0x70 [0xF1, 0, 0, 0] (· == 5) [0x3F3, 0xFFFF, 0xFFFFFFFF, 0xFFFFFFFF] = true ∧
    flag (ready []) F.GYDEN_CONFIG_EN = false ∧ anyArmed (ready []) = false ∧ (ready []).clock.xtalLost = false := by decide

theorem witness_ClockHappenings_more :
    (let b := clkBlk {} [(lpF 1 F.CLOCK_L0_LSTAT_LSTATE, 2)]
     b.clock.lolAt ≠ cycleOf b + 1 ∧ b.clock.refLost = false ∧ loopState b 1 ≠ 5 ∧ loopState b 2 ≠ 5) ∧
    steerRem (clkBlk {} [(F.CLOCK_STATE_STEERING, 1)]) (slewWord (clkBlk {} [(F.CLOCK_STATE_STEERING, 1)])) = 0 ∧
    steerRem (clkBlk {} [(F.CLOCK_STEER_REM_PS, 5)]) (slewWord (clkBlk {} [])) ≠ 0 ∧
    (let b := clkBlk { policy := some 2, stepAt := 1001, delta := 20000001 } []
     let c := setF b (qF 15 F.SEQ_STATE_SSTATE) 2
     stepDue b = true ∧ stepTooLarge b = false ∧ stepDue c = true ∧ stepTooLarge c = true) := by decide

theorem witness_DramCommandsAndErrors_more :
    errorOk ⟨12, 15, 2, true, 469762047, 56, 0, 255, some 65535⟩ = true ∧
    (∀ k < 4, capArmed (dramBlk []) k = false) ∧ (dramBlk []).cmd.jobs = [] ∧
    (let b : Block := { ready [(F.DRAMC_STATE_DSTATE, 4)] with dramc := { safeDue := true } }
     b.dramc.safeDue = true ∧ (∀ k < 16, stillPlays b k = false) ∧ getF b F.DRAMC_STATE_DSTATE = 4 ∧ b.sys.retire = []) ∧
    (let b := running (passAt 100) 0
     cachedFor b 15 1 = false ∧ (seqr b 15).frame ≠ (seqr b 15).s + (seqr b 15).len ∧ (seqr b 15).cut ≠ some 100 ∧
      blackoutReplay b 15 = none) := by decide

theorem witness_DramUpkeep_more :
    requesterOk 12 15 = true ∧ requesterOk 4 3 = true ∧ requesterOk 5 7 = true ∧ workDue (dramBlk []) 5 32000000 = true ∧
    (let b : Block := { dramBlk [] with dramc := { lastAt := [(3, 1), (4, 1), (5, 1)] } }
     workDue b 5 32000000 = false ∧ workDue b 4 16000000 = false ∧
      workDue b 3 (getF b F.DRAMC_OSC_CFG_INTERVAL * 1000000) = false) ∧
    workDue (dramBlk []) 3 (getF (dramBlk []) F.DRAMC_OSC_CFG_INTERVAL * 1000000) = true ∧
    workDue (dramBlk []) 6 (getF (dramBlk []) F.DRAMC_SCRUB_CFG_HOURS * 3600000000000) = true ∧
    max 256 (getF (dramBlk []) F.DRAMC_RH_CFG_THRESH) ≤ (trackRow [(262143, 65535)] 262143).2 ∧
    (trackRow [] 262143).2 < max 256 (getF (dramBlk []) F.DRAMC_RH_CFG_THRESH) ∧ sineUe (ready []) 1 1 16383 = none := by decide

theorem witness_CalibrationAndNor_passed :
    calVerdict (inMode 3 []) calPkt 0 ⟨[], 0, [], 0, [], [], 0, 0, 0⟩ = none := by decide

theorem witness_DramCommandsAndErrors_gate :
    (let b : Block := { ready [(F.DRAMC_STATE_DSTATE, 4)] with dramc := { safeDue := true } }
     relockGate (settleChange b) = b) := rfl

theorem witness_AcquisitionHappenings_upload :
    (let b := capBlk 2 { cfg := { capCfg1 with up := true, upAddr := 0x10000, upSize := 12 }, stored := 1, again := [(5, 2)] }
     dramStalled b = false ∧ (cap b 3).again.find? (fun p => decide (p.2 ≤ (cap b 3).sent)) = none ∧
      dramStalled (ready [(F.DRAMC_STATE_DSTATE, 3)]) = true ∧ quiet b = true ∧ b.mem.errs = []) ∧
    tickSkipped (sampleBlk 0 {}) 1 (samplePeriod (sampleBlk 0 {}) 31) = false ∧
    tickSkipped { sampleBlk 0 {} with clock := { skipFrom := 1, skipTo := 2000000 } } 1 (samplePeriod (sampleBlk 0 {}) 31) = true := by
  decide

theorem witness_LiftEngine_states :
    pb [0x107, 0, 0] 1 9 8 = 1 ∧ pb [0x207, 0, 0] 1 9 8 = 2 ∧ pb [0x307, 0, 0] 1 9 8 = 3 ∧
    (let b := liftBlk { st := 3, addr := 0x1000, desc := liftDesc } 1
     (lift b 7).st = 3 ∧ inWindow b 0 = false ∧ (∀ j ∈ b.cmd.jobs, ¬(j.op = Op.liftSubmit ∧ j.h = hdr 4)) ∧
      takes b (hdr 4) 0x15 [0x207, 0, 0] (· == 4) [0x307, 0xFFFFFFFF, 0xFFFFFFFF] = true) ∧
    (let b := liftBlk { st := 1, addr := 0x1000 } 1
     ({ b with boot := { b.boot with pcieUp := false } } : Block).boot.pcieUp = false ∧
      dramBad (setF b F.DRAMC_STATE_DSTATE 4) = true ∧ dramStalled (setF b F.DRAMC_STATE_DSTATE 1) = true ∧
      dramStalled b = false) ∧
    (let y : LiftCh := { st := 1, addr := 0x1000, desc := [3, 1, 0, 64, 0, 0, 0, 0], seg := 1 }
     let b := withSegs (liftBlk y 5) [(1, { seg1 5 0 with member := true })]
     ldBad y = false ∧ ldWait y = true ∧ (seg b (ldSeg y)).st = 5 ∧ (seg b (ldSeg y)).member = true ∧
      (seg (liftBlk y 3) (ldSeg y)).member = false) := by decide

theorem witness_SequencerWaits_blackout :
    (let x : SeqSt := { mode := 5, seg := 1, len := 256, frame := 164, held := 1, heldAt := 100, holdNext := 164 }
     seqDue (running x 0) 15 = true ∧ x.mode = 5 ∧ x.held ≠ 0 ∧ x.frame = x.holdNext) ∧
    ({ passAt 300 with stop := some ⟨false, some 300, 7, 0, false⟩ } : SeqSt).evq = [] := by decide

theorem witness_RingsAndMoves_members :
    (∃ m ∈ [1, 2, 3], memberBad (ready []) (seg (ready []) 1) m = true) ∧ ¬[1, 2, 1].Nodup ∧
    (∀ m ∈ [1, 2, 3], memberBad ringBlk (seg ringBlk 1) m = false) ∧ dramStalled ringBlk = false ∧
    dramStalled (setF ringBlk F.DRAMC_STATE_DSTATE 1) = true ∧ (∀ x ∈ ringBlk.sys.queue, x.id ≤ ringBlk.cmd.taken) := by decide

/-- Table 15-4: a temperature change that the path reports rejects the unit. -/
theorem witness_CalibrationAndNor_failed :
    (calVerdict (inMode 3 []) calPkt 0 ⟨[], 0, [], 0, [], [], 0x19, 0, 0⟩).isSome = true := by decide

/-- FIPS 180-4's example: SHA-256 of "abc" (R306's image check). -/
theorem test_sha256 : sha256 [0x61, 0x62, 0x63] = [0xBA7816BF, 0x8F01CFEA, 0x414140DE, 0x5DAE2223, 0xB00361A3, 0x96177A9C,
    0xB410FF61, 0xF20015AD] := by decide +kernel
end Sys2Proof.Tests
end

section
/-! PROOFS. The route selectors and software events of the EVENT block (R213, R219): an access to a register of the
block whose written bits are acted on and not stored, and what RT_SEL, RT_GO, RT_CLR and SWEV then do. -/

namespace Sys2Proof.Machine

/-! ## Registers alone -/

theorem regsOnly_trans {s u t : Block} {l k : List Nat} (h : regsOnly s u l) (g : regsOnly u t k) :
    regsOnly s t (l ++ k) := by
  obtain ⟨hu, hw⟩ := h
  obtain ⟨ht, gw⟩ := g
  refine ⟨ht.trans (congrArg (fun x : Block =>
    { x with regs := t.regs, act := t.act, flips := t.flips, hostIf := cycleNotes x.hostIf t.hostIf }) hu), ?_⟩
  intro a ha
  obtain ⟨hl, hk⟩ := List.mem_append.not.trans not_or |>.mp ha
  exact ⟨(gw a hk).1.trans (hw a hl).1, (gw a hk).2.trans (hw a hl).2⟩

theorem regsOnly.event_eq {s t : Block} {l : List Nat} (h : regsOnly s t l) : t.event = s.event :=
  (congrArg Block.event h.1 :)

theorem regsOnly.fires_eq {s t : Block} {l : List Nat} (h : regsOnly s t l) : t.fires = s.fires :=
  (congrArg Block.fires h.1 :)

theorem regsOnly.sysTime_eq {s t : Block} {l : List Nat} (h : regsOnly s t l) : t.sysTime = s.sysTime :=
  (congrArg Block.sysTime h.1 :)

theorem regsOnly.getW_eq {s t : Block} {l : List Nat} (h : regsOnly s t l) {a : Nat} (ha : a ∉ l) :
    getW t a = getW s a := (h.2 a ha).1

/-- A field of a register that is left alone reads as before. -/
theorem regsOnly.getF_eq {s t : Block} {l : List Nat} (h : regsOnly s t l) (f : Fld) (hf : f.adr ∉ l) :
    getF t f = getF s f := by
  unfold getF; rw [h.getW_eq hf]

theorem regsOnly_putM (s : Block) (a m v : Nat) : regsOnly s (putM s a m v) [a] := by
  constructor
  · unfold putM putA; dsimp only; split <;> rfl
  · intro b hb
    have hba : b ≠ a := by simpa using hb
    rw [getW_putM, getP_putM, if_neg hba, if_neg hba]; exact ⟨rfl, rfl⟩

theorem regsOnly_setF (s : Block) (f : Fld) (v : Nat) : regsOnly s (setF s f v) [f.adr] := regsOnly_putM _ _ _ _

theorem regsOnly_raise (s : Block) (f : Fld) : regsOnly s (raise s f) [f.adr] := by
  have hnotes : regsOnly s
      { s with hostIf := { hwNow s with hwSet := (f.adr, maskOf f.hi f.lo) :: (hwNow s).hwSet } } [] := by
    refine ⟨?_, fun _ _ => ⟨rfl, rfl⟩⟩
    unfold hwNow; dsimp only; split <;> rfl
  exact regsOnly_trans hnotes (regsOnly_setF _ f 1)

/-- A write of no bits leaves every word. -/
theorem regsOnly_putP_none (s : Block) (a v : Nat) : regsOnly s (putP s a 0 v) [] := by
  refine ⟨rfl, fun b _ => ?_⟩
  rw [getW_putP, getP_putP, mergeMask_zero, mergeMask_zero]
  constructor <;> split <;> simp_all

theorem regsOnly_putA_none (s : Block) (a v : Nat) : regsOnly s (putA s a 0 v) [] := by
  constructor
  · unfold putA; dsimp only; split <;> rfl
  · intro b _
    rw [getW_putA, getP_putA, mergeMask_zero]
    constructor
    · split <;> simp_all
    · rfl

theorem regsOnly_putM_none (s : Block) (a v : Nat) : regsOnly s (putM s a 0 v) [] :=
  regsOnly_trans (regsOnly_putP_none s a v) (regsOnly_putA_none _ a v)

theorem regsOnly_unflip (s : Block) (a m : Nat) (sh : Bool) : regsOnly s (unflip s a m sh) [] :=
  ⟨rfl, fun _ _ => ⟨rfl, rfl⟩⟩

/-! ## An access of a master -/

/-- Counting an access takes the cycle and changes the master's counter alone (R313). -/
theorem regsOnly_countAccess (s : Block) (m : Master) : regsOnly s (countAccess s m) [accReg m] := by
  have hslot : regsOnly s (takeSlot s m) [] := ⟨rfl, fun _ _ => ⟨rfl, rfl⟩⟩
  cases m with
  | pcie => exact regsOnly_trans hslot (regsOnly_setF _ F.GLOBAL_ACC_PCIE_COUNT _)
  | spi => exact regsOnly_trans hslot (regsOnly_setF _ F.GLOBAL_ACC_SPI_COUNT _)

theorem regsOnly_noteWrite (s : Block) (a : Nat) : regsOnly s (noteWrite s a) [] :=
  ⟨rfl, fun _ _ => ⟨rfl, rfl⟩⟩

/-- A write that stores no bit and clears none leaves every word, outside the regions and the held maxima. -/
theorem regsOnly_storeBits_none (s : Block) (d : RegDef) (a v : Nat) (hr : inRegion a = false)
    (hm : maxHeld a = false) : regsOnly s (storeBits s d a v 0 0) [] := by
  have hst : storeBits s d a v 0 0 =
      putM (putA (unflip (unflip (putP s a 0 v) a 0 true) a 0 false) a 0 v) a 0 0 := by
    simp [storeBits, hr, hm]
  rw [hst]
  have hshadow := regsOnly_trans (regsOnly_putP_none s a v) (regsOnly_unflip _ a 0 true)
  have hprog := regsOnly_trans hshadow (regsOnly_unflip _ a 0 false)
  exact regsOnly_trans (regsOnly_trans hprog (regsOnly_putA_none _ a v)) (regsOnly_putM_none _ a 0)

/-! ## The registers of the EVENT block that store nothing -/

/-- `a` is a register of the EVENT block whose written bits are acted on and not stored (Table 10-8): it has neither
key nor W1C bits, and lies before GLSEL, the first register with reserved codes. -/
structure EventStrobe (a : Nat) (d : RegDef) : Prop where
  block : a / 0x1000 = 2
  aligned : a % 4 = 0
  beforeGlsel : a % 0x1000 < 0x38
  defined : regDef a = some d
  keyless : d.key = 0
  noW1c : d.w1c = 0
  stored : notStored a = d.rw

theorem eventStrobe_ctrl : EventStrobe R.EVENT_CTRL ⟨0, 0x3, 0, 0, 0, 0, 0⟩ :=
  ⟨rfl, rfl, by decide, by decide, rfl, rfl, by decide⟩

theorem eventStrobe_swev : EventStrobe R.EVENT_SWEV ⟨0xC, 0xFF, 0, 0, 0, 0, 0⟩ :=
  ⟨rfl, rfl, by decide, by decide, rfl, rfl, by decide⟩

theorem eventStrobe_rtSel : EventStrobe R.EVENT_RT_SEL ⟨0x10, 0xFF, 0, 0, 0, 0, 0⟩ :=
  ⟨rfl, rfl, by decide, by decide, rfl, rfl, by decide⟩

/-- A register before GLSEL takes every code. -/
theorem eventBad_of_lt {o : Nat} (new : Nat) (h : o < 0x38) : eventBad o new = false := by
  have h1 : o ≠ 0x44 := by omega
  have h2 : ¬ 0x100 ≤ o := by omega
  have h3 : o ≠ 0x38 := by omega
  have h4 : ¬ 0x80 ≤ o := by omega
  simp [eventBad, h1, h2, h3, h4]

theorem writeEffect_event (s : Block) (m : Master) (a old v acc : Nat) (h : a / 0x1000 = 2) :
    writeEffect s m a old v acc = eventEffect s (a % 0x1000) (v &&& acc) (acc != 0) := by
  simp [writeEffect, h]

theorem ruleMask_event (s : Block) (a old new mask : Nat) (h : a / 0x1000 = 2) :
    ruleMask s a old new mask = (s, if eventBad (a % 0x1000) new then 0 else mask) := by
  have h1 : ¬ a < 0x1000 := by omega
  have h2 : ¬ a < 0x2000 := by omega
  have h3 : a < 0x3000 := by omega
  simp [ruleMask, h1, h2, h3]

/-- A write of such a register sets its effect going on a block that differs in no word. -/
theorem writeReg_eventStrobe {a : Nat} {d : RegDef} (hs : EventStrobe a d) (s : Block) (m : Master) (v : Nat) :
    ∃ u, regsOnly s u [] ∧
      writeReg s m d a v = eventEffect u (a % 0x1000) (v &&& d.rw) (d.rw != 0) := by
  have hblk := hs.block
  have htakes := fun new => eventBad_of_lt new hs.beforeGlsel
  have hregion : inRegion a = false := by simp [inRegion]; omega
  have hmax : maxHeld a = false := by
    have : ∀ x ∈ [R.GLOBAL_MODE_SKEW, R.HOSTCMD_STEP_MAX, R.HOSTCMD_LAT_URG, R.POWER_PEAK_PKG, R.DRAMC_LAT_RT0,
        R.DRAMC_LAT_RT1, R.MMU_WALK_MAX], x / 0x1000 ≠ 2 := by decide
    unfold maxHeld
    rw [List.contains_eq_mem, decide_eq_false_iff_not]
    exact fun hx => this a hx hblk
  have hctrl : a ≠ R.GLOBAL_CTRL := by rintro rfl; exact absurd hblk (by decide)
  have hw : writable s m d a v = d.rw := by simp [writable, hctrl, hs.keyless]
  have htaps : ¬ 0x3C000 ≤ a := by omega
  refine ⟨storeBits (noteWrite s a) d a v 0 0,
    regsOnly_trans (regsOnly_noteWrite s a) (regsOnly_storeBits_none _ d a v hregion hmax), ?_⟩
  simp [writeReg, hregion, hw, keyCheck, hs.keyless, ruleMask_event _ _ _ _ _ hblk, htakes, hs.stored, htaps,
    noteSyn, hs.noW1c, writeEffect_event _ _ _ _ _ _ hblk]

/-- A master's access to such a register has its cycle, is counted, and sets the effect going. -/
theorem writeAt_eventStrobe {a : Nat} {d : RegDef} (hs : EventStrobe a d) (y : Block) (m : Master) (v : Word)
    (hl : linkReady y m = true) : ∃ u, regsOnly (atSlot y m) u [accReg m] ∧
      writeAt m a v 15 y = .next (eventEffect u (a % 0x1000) (v.toNat &&& d.rw) (d.rw != 0)) := by
  have hblk := hs.block
  obtain ⟨u, hu, hw⟩ := writeReg_eventStrobe hs (countAccess (atSlot y m) m) m v.toNat
  refine ⟨u, regsOnly_trans (regsOnly_countAccess _ m) hu, ?_⟩
  have hacc : accessible m a = true := by
    cases m <;> simp [accessible, hs.aligned] <;> omega
  have hstall : accessStalls y m a = false := by
    have hwin : a ≠ R.MMU_WIN_DATA := by rintro rfl; exact absurd hblk (by decide)
    have hind : a ≠ R.GLOBAL_IND_DATA := by rintro rfl; exact absurd hblk (by decide)
    have hind' : a ≠ R.GLOBAL_IND_DATA + 0xC := by rintro rfl; exact absurd hblk (by decide)
    simp [accessStalls, hwin, hind, hind']
  have hbar : a < 0x40000 := by omega
  have hwindow : ¬ 0x40000 ≤ a := by omega
  simp [writeAt, writeNow, hacc, hl, hstall, hwindow, hbar, hs.defined, hw]

/-! ## What the registers set going -/

theorem eventEffect_rtGo (s : Block) : eventEffect s 0 1 true = rtGoOp s := rfl

theorem eventEffect_rtClr (s : Block) : eventEffect s 0 2 true = rtClrOp s := rfl

theorem eventEffect_swev (s : Block) (v : Nat) : eventEffect s 0xC v true = swevOp s v := rfl

theorem eventEffect_rtSel (s : Block) (v : Nat) : eventEffect s 0x10 v true = rtSelOp s v := rfl

theorem regsOnly_rtSelOp (s : Block) (v : Nat) :
    regsOnly s (rtSelOp s v) [R.EVENT_RT_SEL, R.EVENT_RT_SRC, R.EVENT_RT_CFG] :=
  regsOnly_trans (regsOnly_trans (regsOnly_setF s F.EVENT_RT_SEL_SINK v) (regsOnly_putM _ R.EVENT_RT_SRC _ _))
    (regsOnly_putM _ R.EVENT_RT_CFG _ _)

/-- RT_SEL written shows the sink and the committed entry of that sink. -/
theorem rtSelOp_loads (s : Block) {k : Nat} (hk : k < 256) :
    getF (rtSelOp s k) F.EVENT_RT_SEL_SINK = k ∧ getW (rtSelOp s k) R.EVENT_RT_SRC = routeSrc s k ∧
      getW (rtSelOp s k) R.EVENT_RT_CFG = routeCfg s k := by
  have hsel : getF (setF s F.EVENT_RT_SEL_SINK k) F.EVENT_RT_SEL_SINK = k :=
    (getF_setF_same _ _ _ (by decide) (by decide)).trans (Nat.mod_eq_of_lt hk)
  refine ⟨?_, ?_, ?_⟩
  · calc getF (rtSelOp s k) F.EVENT_RT_SEL_SINK
        = getF (putM (setF s F.EVENT_RT_SEL_SINK k) R.EVENT_RT_SRC _ _) F.EVENT_RT_SEL_SINK :=
          (regsOnly_putM _ R.EVENT_RT_CFG _ _).getF_eq _ (by decide)
      _ = getF (setF s F.EVENT_RT_SEL_SINK k) F.EVENT_RT_SEL_SINK :=
          (regsOnly_putM _ R.EVENT_RT_SRC _ _).getF_eq _ (by decide)
      _ = k := hsel
  · simp [rtSelOp, getW_putM, hsel, routeSrc, mergeMask_full]
  · simp [rtSelOp, getW_putM, hsel, routeCfg, mergeMask_full]

/-- RT_GO with a sink above 159 or a reserved source commits nothing (R213). -/
theorem rtGoOp_refused (s : Block) (h : 160 ≤ getF s F.EVENT_RT_SEL_SINK ∨
    ∃ i < 4, 192 ≤ bits (getW s R.EVENT_RT_SRC) (8 * i + 7) (8 * i)) :
    rtGoOp s = raise s F.EVENT_STATUS_RT_REFUSED := by
  apply if_pos
  simpa [Nat.succ_le_iff] using h

/-- RT_GO otherwise commits the staging copy as the entry of the selected sink, and changes no register. -/
theorem rtGoOp_commits (s : Block) (hk : getF s F.EVENT_RT_SEL_SINK < 160)
    (hw : ∀ i < 4, bits (getW s R.EVENT_RT_SRC) (8 * i + 7) (8 * i) < 192) :
    (∀ x, routeSrc (rtGoOp s) x =
      if x = getF s F.EVENT_RT_SEL_SINK then getW s R.EVENT_RT_SRC else routeSrc s x) ∧
    (∀ x, routeCfg (rtGoOp s) x =
      if x = getF s F.EVENT_RT_SEL_SINK then getW s R.EVENT_RT_CFG else routeCfg s x) ∧
    ∀ a, getW (rtGoOp s) a = getW s a := by
  have hnot : ¬ (decide (159 < getF s F.EVENT_RT_SEL_SINK) || (List.range 4).any (fun i =>
      decide (192 ≤ bits (getW s R.EVENT_RT_SRC) (8 * i + 7) (8 * i)))) = true := by
    simpa using ⟨Nat.le_of_lt_succ hk, hw⟩
  unfold rtGoOp
  dsimp only
  rw [if_neg hnot]
  exact ⟨fun _ => Tbl.get_set _ _ _ _ _, fun _ => Tbl.get_set _ _ _ _ _, fun _ => rfl⟩

theorem getW_rtClrOp (s : Block) (a : Nat) : getW (rtClrOp s) a = getW s a := rfl

theorem counts_rtClrOp (s : Block) (x : Nat) : Tbl.get (fun _ => 0) (rtClrOp s).event.counts x =
    if x = getF s F.EVENT_RT_SEL_SINK then 0 else Tbl.get (fun _ => 0) s.event.counts x :=
  Tbl.get_set (fun _ => 0) s.event.counts _ x 0

/-- Firings of the sources 184 + `k` for `k` in a list, all at the present time, stand one behind the other. -/
theorem forEach_fire_soft (l : List Nat) (s : Block) :
    forEach l s (fun s k => fire s (184 + k) 0 s.sysTime) =
      { s with fires := s.fires ++ l.map (fun k => ⟨184 + k, 0, s.sysTime⟩) } := by
  induction l generalizing s with
  | nil => simp [forEach]
  | cons k l ih =>
    have hstep := ih (fire s (184 + k) 0 s.sysTime)
    simp only [forEach, List.foldl_cons] at hstep ⊢
    rw [hstep]; simp [fire]

theorem getW_swevOp (s : Block) (v a : Nat) : getW (swevOp s v) a = getW s a := by
  unfold swevOp; rw [forEach_fire_soft]; rfl

theorem fires_swevOp (s : Block) (v : Nat) :
    (swevOp s v).fires = s.fires ++ (bitList v 8).map (fun k => ⟨184 + k, 0, s.sysTime⟩) := by
  unfold swevOp; rw [forEach_fire_soft]

/-! ## The accesses -/

/-- The low byte of a word, as its mask and as its field. -/
theorem and_ff_eq_bits (v : Word) : v.toNat &&& 0xFF = bits v 7 0 :=
  Nat.and_two_pow_sub_one_eq_mod v.toNat 8

theorem bitList_bits (v : Word) : bitList (bits v 7 0) 8 = bitList v.toNat 8 := by
  unfold bitList
  apply List.filter_congr
  intro i hi
  have h8 : i < 8 := List.mem_range.mp hi
  simp [bits, testBit_natBits, h8]

section
variable (y : Block) (q : List Instr) (m : Master) (hl : linkReady y m = true)
include hl

theorem exec_rtSelWrite (v : Word) : ∃ u, regsOnly (atSlot y m) u [accReg m] ∧
    exec (.rtSelWrite m v) ⟨y, q⟩ = .next ⟨rtSelOp u (bits v 7 0), q⟩ := by
  obtain ⟨u, hu, hw⟩ := writeAt_eventStrobe eventStrobe_rtSel y m v hl
  refine ⟨u, hu, ?_⟩
  have hexec : exec (.rtSelWrite m v) ⟨y, q⟩ = onBlock ⟨y, q⟩ (writeAt m R.EVENT_RT_SEL v 15) := rfl
  rw [hexec, onBlock, hw, and_ff_eq_bits, ← eventEffect_rtSel]; rfl

theorem exec_rtGo : ∃ u, regsOnly (atSlot y m) u [accReg m] ∧
    exec (.rtGo m) ⟨y, q⟩ = .next ⟨rtGoOp u, q⟩ := by
  obtain ⟨u, hu, hw⟩ := writeAt_eventStrobe eventStrobe_ctrl y m 1 hl
  refine ⟨u, hu, ?_⟩
  have hexec : exec (.rtGo m) ⟨y, q⟩ = onBlock ⟨y, q⟩ (writeAt m R.EVENT_CTRL 1 15) := rfl
  rw [hexec, onBlock, hw, ← eventEffect_rtGo]; rfl

theorem exec_rtClr : ∃ u, regsOnly (atSlot y m) u [accReg m] ∧
    exec (.rtClr m) ⟨y, q⟩ = .next ⟨rtClrOp u, q⟩ := by
  obtain ⟨u, hu, hw⟩ := writeAt_eventStrobe eventStrobe_ctrl y m 2 hl
  refine ⟨u, hu, ?_⟩
  have hexec : exec (.rtClr m) ⟨y, q⟩ = onBlock ⟨y, q⟩ (writeAt m R.EVENT_CTRL 2 15) := rfl
  rw [hexec, onBlock, hw, ← eventEffect_rtClr]; rfl

theorem exec_swev (v : Word) : ∃ u, regsOnly (atSlot y m) u [accReg m] ∧
    exec (.swev m v) ⟨y, q⟩ = .next ⟨swevOp u (bits v 7 0), q⟩ := by
  obtain ⟨u, hu, hw⟩ := writeAt_eventStrobe eventStrobe_swev y m v hl
  refine ⟨u, hu, ?_⟩
  have hexec : exec (.swev m v) ⟨y, q⟩ = onBlock ⟨y, q⟩ (writeAt m R.EVENT_SWEV v 15) := rfl
  rw [hexec, onBlock, hw, and_ff_eq_bits, ← eventEffect_swev]; rfl

end

/-- No register of the EVENT block is a master's counter of accesses. -/
theorem event_not_accReg (m : Master) {a : Nat} (h : a / 0x1000 = 2) : a ∉ [accReg m] := by
  have hacc : accReg m / 0x1000 = 0 := by cases m <;> rfl
  rw [List.mem_singleton]
  rintro rfl
  omega

/-- Settles O26: each access is a write of a register that stores nothing, whose effect runs on the block of the
master's cycle with the access counted. -/
theorem routerSelectors : Obligations.RouterSelectors := by
  intro y q m v hl b
  refine ⟨?_, ?_, ?_, ?_⟩
  · obtain ⟨u, hu, hex⟩ := exec_rtSelWrite y q m hl v
    have hk : bits v 7 0 < 256 := Nat.mod_lt _ (by decide)
    obtain ⟨hsink, hsrc, hcfg⟩ := rtSelOp_loads u hk
    refine ⟨_, hex, hsink, ?_, ?_, regsOnly_trans hu (regsOnly_rtSelOp u _)⟩
    · rw [hsrc, routeSrc, hu.event_eq]; rfl
    · rw [hcfg, routeCfg, hu.event_eq]; rfl
  · obtain ⟨u, hu, hex⟩ := exec_rtGo y q m hl
    have hsink : getF u F.EVENT_RT_SEL_SINK = getF b F.EVENT_RT_SEL_SINK :=
      hu.getF_eq _ (event_not_accReg m rfl)
    have hsrc : getW u R.EVENT_RT_SRC = getW b R.EVENT_RT_SRC := hu.getW_eq (event_not_accReg m rfl)
    have hcfg : getW u R.EVENT_RT_CFG = getW b R.EVENT_RT_CFG := hu.getW_eq (event_not_accReg m rfl)
    refine ⟨_, hex, fun hk hw => ?_, fun hbad => ?_⟩
    · obtain ⟨hs, hc, hr⟩ := rtGoOp_commits u (hsink ▸ hk) (hsrc ▸ hw)
      simp only [routeSrc, routeCfg, hu.event_eq, hsink, hsrc, hcfg] at hs hc
      exact ⟨hs, hc, fun a ha => (hr a).trans (hu.getW_eq (by simpa using ha))⟩
    · rw [rtGoOp_refused u (by rwa [hsink, hsrc])]
      exact ⟨flag_setF_same _ _ _ rfl (by decide), regsOnly_trans hu (regsOnly_raise u _)⟩
  · obtain ⟨u, hu, hex⟩ := exec_rtClr y q m hl
    refine ⟨_, hex, fun a ha => ?_, fun x => ?_⟩
    · rw [getW_rtClrOp]; exact hu.getW_eq (by simpa using ha)
    · rw [counts_rtClrOp, hu.event_eq, hu.getF_eq _ (event_not_accReg m rfl)]
  · obtain ⟨u, hu, hex⟩ := exec_swev y q m hl v
    refine ⟨_, hex, fun a ha => ?_, ?_⟩
    · rw [getW_swevOp]; exact hu.getW_eq (by simpa using ha)
    · rw [fires_swevOp, bitList_bits, hu.fires_eq, hu.sysTime_eq]

end Sys2Proof.Machine
end

section
/-! PROOFS. The key lock (R318) and the masked fields of GLOBAL.CTRL (R316): what a locked master's write of a guarded
register may change and what it records, and how a plain write is stored. -/

namespace Sys2Proof.Machine

/-! ## Counters and flags -/

/-- A saturating counter steps by one up to the largest value of its field. -/
theorem getF_incSat_same (s : Block) (f : Fld) (h : f.lo ≤ f.hi) (h32 : f.hi < 32) :
    getF (incSat s f) f = min (getF s f + 1) (2 ^ (f.hi + 1 - f.lo) - 1) := by
  have hpos : 0 < 2 ^ (f.hi + 1 - f.lo) := Nat.two_pow_pos _
  rw [incSat_eq, getF_setF_same s f _ h h32, satU]
  exact Nat.mod_eq_of_lt (by omega)

theorem getF_raise_adr (s : Block) (f g : Fld) (h : g.adr ≠ f.adr) : getF (raise s f) g = getF s g :=
  (regsOnly_raise s f).getF_eq g (by simpa using h)

theorem flag_raise_same (s : Block) (f : Fld) (h : f.lo = f.hi) (h32 : f.hi < 32) : flag (raise s f) f = true :=
  flag_setF_same _ f 1 h h32

/-! ## A locked master -/

/-- The row of GLOBAL.CTRL in the register map: its masked bits stand in none of the columns. -/
def ctrlDef : RegDef := ⟨0x10, 0, 0, 0, 0, 0, 0⟩

theorem regDef_ctrl : regDef R.GLOBAL_CTRL = some ctrlDef := rfl

/-- A guarded register is not the masked one. -/
theorem ne_ctrl_of_keyed {a : Nat} {d : RegDef} (hd : regDef a = some d) (hk : d.key ≠ 0) : a ≠ R.GLOBAL_CTRL := by
  rintro rfl
  rw [regDef_ctrl, Option.some.injEq] at hd
  exact hk (hd ▸ rfl)

section
variable (s : Block) (m : Master) (d : RegDef) (a old v : Nat)

theorem writable_ctrl : writable s m d R.GLOBAL_CTRL v = (v >>> 16) &&& 7 := if_pos rfl

variable (hk : d.key ≠ 0) (hlock : flag s (keyF m) = false)
include hk hlock

theorem writable_locked (ha : a ≠ R.GLOBAL_CTRL) : writable s m d a v = Nat.ldiff d.rw d.key := by
  rw [← sub_and_eq_ldiff]
  simp [writable, ha, hk, hlock]

/-- A write by a locked master that leaves every keyed bit records nothing. -/
theorem keyCheck_locked_same (h : (old ^^^ v) &&& d.key = 0) : keyCheck s m d a old v = s := by
  simp [keyCheck, hk, hlock, h]

/-- One that would change a keyed bit is counted and flagged, with its word address. -/
theorem keyCheck_locked_changed (h : (old ^^^ v) &&& d.key ≠ 0) : keyCheck s m d a old v =
    raise (setF (incSat s F.GLOBAL_LOCKED_WR_COUNT) F.GLOBAL_LOCKED_WR_WADDR (a / 4)) F.GLOBAL_STATUS_LOCKED_WR := by
  simp [keyCheck, hk, hlock, h]

end

/-- Settles O17: the writable bits are those that software writes without the keyed ones, and a refused change goes to
the two fields of LOCKED_WR and to its flag, which lie apart. -/
theorem lockedWrites : Obligations.LockedWrites := by
  intro s m d a old v hd hk hlock ha
  refine ⟨fun i => ?_, fun hchg => ?_, keyCheck_locked_same s m d a old v hk hlock⟩
  · rw [writable_locked s m d a v hk hlock (ne_ctrl_of_keyed hd hk), Nat.testBit_ldiff]
  · rw [keyCheck_locked_changed s m d a old v hk hlock hchg]
    refine ⟨?_, ?_, flag_raise_same _ _ rfl (by decide)⟩
    · rw [getF_raise_adr _ _ _ (by decide), getF_setF_ne _ _ _ _ (by decide)]
      exact getF_incSat_same s _ (by decide) (by decide)
    · rw [getF_raise_adr _ _ _ (by decide), getF_setF_same _ _ _ (by decide) (by decide)]
      exact Nat.mod_eq_of_lt (by dsimp only; omega)

/-! ## A plain write -/

theorem putA_unflip (s : Block) (a mask v b n : Nat) (sh : Bool) :
    putA (unflip s b n sh) a mask v = unflip (putA s a mask v) b n sh := by
  unfold putA unflip; dsimp only; split <;> rfl

/-- A register without buffered bits, outside the regions and the held maxima, takes the bits of the mask as it would
from the hardware, in all their copies. -/
theorem storeBits_unbuffered (s : Block) (d : RegDef) (a v mask : Nat) (hr : inRegion a = false) (hm : maxHeld a = false)
    (hb : d.buf = 0) : storeBits s d a v mask 0 =
      putM (unflip (unflip (putM s a mask v) a 0 true) a mask false) a 0 0 := by
  have hcopies : unflip (unflip (putM s a mask v) a 0 true) a mask false =
      putA (unflip (unflip (putP s a mask v) a 0 true) a mask false) a mask v := by
    rw [putA_unflip, putA_unflip, putM]
  rw [hcopies]
  simp [storeBits, hr, hm, hb]

section
variable (s : Block) (d : RegDef) (a v mask : Nat) (hr : inRegion a = false) (hm : maxHeld a = false) (hb : d.buf = 0)
include hr hm hb

/-- Such a write differs from one by the hardware in no word. -/
theorem regsOnly_putM_storeBits : regsOnly (putM s a mask v) (storeBits s d a v mask 0) [] := by
  rw [storeBits_unbuffered s d a v mask hr hm hb]
  have hcopies := regsOnly_trans (regsOnly_unflip (putM s a mask v) a 0 true) (regsOnly_unflip _ a mask false)
  exact regsOnly_trans hcopies (regsOnly_putM_none _ a 0)

theorem regsOnly_storeBits : regsOnly s (storeBits s d a v mask 0) [a] :=
  regsOnly_trans (regsOnly_putM s a mask v) (regsOnly_putM_storeBits s d a v mask hr hm hb)

theorem getW_storeBits : getW (storeBits s d a v mask 0) a = Word.ofNat (mergeMask (getW s a).toNat v mask) := by
  rw [(regsOnly_putM_storeBits s d a v mask hr hm hb).getW_eq List.not_mem_nil, getW_putM, if_pos rfl]

end

/-! ## An access that writes -/

/-- A whole-word write of a register of BAR0, where DRAM holds up no access of it, is done in the master's cycle and
counted (R313). -/
theorem writeAt_defined {a : Nat} {d : RegDef} (hd : regDef a = some d) (h4 : a % 4 = 0) (hbar : a < 0x40000)
    (y : Block) (m : Master) (v : Word) (hl : linkReady y m = true) (hstall : accessStalls y m a = false) :
    writeAt m a v 15 y = .next (writeReg (countAccess (atSlot y m) m) m d a v.toNat) := by
  have hacc : accessible m a = true := by
    cases m <;> simp [accessible, h4] <;> omega
  have hwindow : ¬ 0x40000 ≤ a := by omega
  simp [writeAt, writeNow, hacc, hl, hstall, hwindow, hbar, hd]

/-- A step that met no error at a read has nothing to bring about at its end. -/
theorem afterReads_of_quiet {s : Block} (h : quiet s = true) : afterReads s = s := by
  unfold afterReads
  rw [List.isEmpty_iff.mp h]

theorem regsOnly.quiet_eq {s t : Block} {l : List Nat} (h : regsOnly s t l) : quiet t = quiet s :=
  (congrArg quiet h.1 :)

/-- A register write that changes registers alone ends with the block it leaves, where no error waits. -/
theorem exec_registerWrite_of_regsOnly {y t : Block} {m : Master} {a be : Nat} {v : Word} {l : List Nat} (q : List Instr)
    (hw : writeAt m a v be y = .next t) (ht : regsOnly (atSlot y m) t l) (hq : quiet (atSlot y m) = true) :
    exec (.registerWrite m a v be) ⟨y, q⟩ = .next ⟨t, q⟩ := by
  have hexec : exec (.registerWrite m a v be) ⟨y, q⟩ = onReads ⟨y, q⟩ (writeAt m a v be) := rfl
  rw [hexec, onReads, onBlock, hw]
  dsimp only
  rw [afterReads_of_quiet (ht.quiet_eq.trans hq)]

/-! ## GLOBAL.CTRL -/

/-- The bits of CTRL that a write of `v` selects. -/
def ctrlMask (v : Word) : Nat := (v.toNat >>> 16) &&& 7

theorem testBit_ctrlMask (v : Word) (i : Nat) : (ctrlMask v).testBit i = (decide (i < 3) && v.getLsbD (16 + i)) := by
  have h7 : (7 : Nat).testBit i = decide (i < 3) := Nat.testBit_two_pow_sub_one 3 i
  rw [ctrlMask, Nat.testBit_and, Nat.testBit_shiftRight, h7, BitVec.testBit_toNat, Bool.and_comm]

theorem ruleMask_global (s : Block) (a old new mask : Nat) (h : a < 0x1000) :
    ruleMask s a old new mask = (s, globalMask (a % 0x1000) new mask) := if_pos h

theorem globalMask_ctrl (new mask : Nat) : globalMask (R.GLOBAL_CTRL % 0x1000) new mask = mask := rfl

theorem noteSyn_outside_regions (s : Block) (a : Nat) (h : inRegion a = false) : noteSyn s a = s := by
  simp [noteSyn, h]

theorem writeEffect_ctrl (s : Block) (m : Master) (old v acc : Nat) :
    writeEffect s m R.GLOBAL_CTRL old v acc = s := rfl

/-- CTRL has no key, no W1C bit and no reserved code, and a write of it sets nothing going. -/
theorem writeReg_ctrl (s : Block) (m : Master) (v : Word) :
    writeReg s m ctrlDef R.GLOBAL_CTRL v.toNat =
      storeBits (noteWrite s R.GLOBAL_CTRL) ctrlDef R.GLOBAL_CTRL v.toNat (ctrlMask v) 0 := by
  have hregion : inRegion R.GLOBAL_CTRL = false := rfl
  have htaps : ¬ 0x3C000 ≤ R.GLOBAL_CTRL := by decide
  have hstored : notStored R.GLOBAL_CTRL = 0 := rfl
  have hblock : R.GLOBAL_CTRL < 0x1000 := by decide
  simp [writeReg, hregion, writable_ctrl, keyCheck, ruleMask_global _ _ _ _ _ hblock, globalMask_ctrl, hstored, htaps,
    noteSyn_outside_regions _ _ hregion, writeEffect_ctrl, ctrlDef, ctrlMask]

/-- A write of CTRL merges the selected bits into it and changes no register but it and the counter of accesses. -/
theorem exec_registerWrite_ctrl (y : Block) (q : List Instr) (m : Master) (v : Word) (hl : linkReady y m = true)
    (hq : quiet (atSlot y m) = true) : ∃ t, exec (.registerWrite m R.GLOBAL_CTRL v 15) ⟨y, q⟩ = .next ⟨t, q⟩ ∧
      regsOnly (atSlot y m) t [accReg m, R.GLOBAL_CTRL] ∧
      getW t R.GLOBAL_CTRL =
        Word.ofNat (mergeMask (getW (atSlot y m) R.GLOBAL_CTRL).toNat v.toNat (ctrlMask v)) := by
  have hstall : accessStalls y m R.GLOBAL_CTRL = false := Bool.and_false _
  have hw := writeAt_defined regDef_ctrl (by decide) (by decide) y m v hl hstall
  rw [writeReg_ctrl] at hw
  have hbefore := regsOnly_trans (regsOnly_countAccess (atSlot y m) m) (regsOnly_noteWrite _ R.GLOBAL_CTRL)
  have hnot : R.GLOBAL_CTRL ∉ [accReg m] ++ [] := by cases m <;> decide
  have hregs := regsOnly_trans hbefore
    (regsOnly_storeBits _ ctrlDef R.GLOBAL_CTRL v.toNat (ctrlMask v) rfl rfl rfl)
  refine ⟨_, exec_registerWrite_of_regsOnly q hw hregs hq, hregs, ?_⟩
  rw [getW_storeBits _ _ _ _ _ rfl rfl rfl, hbefore.getW_eq hnot]

/-- Settles O19: CTRL after the write is the merge of the selected bits, read bit by bit. -/
theorem maskedWrite : Obligations.MaskedWrite := by
  intro y q m v hl hq b
  obtain ⟨t, hex, hregs, hctrl⟩ := exec_registerWrite_ctrl y q m v hl hq
  have hbit : ∀ i, i < 32 → (getW t R.GLOBAL_CTRL).getLsbD i =
      (if i < 3 ∧ v.getLsbD (16 + i) = true then v.getLsbD i else (getW b R.GLOBAL_CTRL).getLsbD i) := by
    intro i hi
    rw [hctrl, BitVec.getLsbD_ofNat, testBit_mergeMask, testBit_ctrlMask, BitVec.testBit_toNat, BitVec.testBit_toNat]
    simp [hi, b]
  refine ⟨t, hex, hregs, hbit, fun hmask => ?_⟩
  apply BitVec.eq_of_getLsbD_eq
  intro i hi
  have hclear : v.getLsbD (16 + i) = false := by
    rw [← BitVec.getLsbD_ushiftRight, hmask]; exact BitVec.getLsbD_zero
  simp [hbit i hi, hclear]

end Sys2Proof.Machine
end
